-- ==== Sys2Proof/Word.lean ====
section
/-! DEFINITION. The words the manual treats as bits: bytes of a frame, converter codes, the 39 bits of a protected
word, and the index types of the part's fixed sets. -/

namespace Sys2Proof

/-- One byte of a frame (R210). -/
abbrev Byte := BitVec 8

/-- One converter code, 0..4095 (R36). -/
abbrev Code := BitVec 12

/-- The 39 bits of a protected word, 32 data bits and 7 check bits (R185); used as the set of its wrong bits. -/
abbrev WordBits := BitVec 39

/-- A station by index: the station numbered n is index n − 1 (section 6.3). -/
abbrev StationIx := Fin 16

/-- A sample line by its number 0..18 (section 6.3). -/
abbrev Line := Fin 19

/-- A protected word by its number 0..511 (section 6.3). -/
abbrev WordIx := Fin 512

end Sys2Proof
end

