-- ==== Sys2Proof/Syntax.lean ====
section
/-! DEFINITION. The commands of the part: one constructor for each row of spec/opcode_table.json, with its operands. -/

namespace Sys2Proof

/-- The two serial ports (R209). -/
inductive Port where
  | control
  | monitor
  deriving DecidableEq, Repr

/-- A complete request frame with a good check, as it arrives: the port, the address byte and the body (R210, R212).
The kind byte is fixed by the row. -/
structure Request where
  port : Port
  address : Byte
  body : List Byte
  deriving DecidableEq, Repr

/-- One constructor for each row of the table.

A request row carries its frame. The rows of STATION COMMAND, MODE and RESTART share a kind byte; a frame of such a kind
is the row whose operation its body names, and one that names no listed operation may come as any of them (log 3).
A row that a timer makes happens at that timer's expiry (log 1). -/
inductive Instr where
  | ident (r : Request)
  | status (r : Request)
  | stationQuery (r : Request)
  | bankQuery (r : Request)
  | sweepQuery (r : Request)
  | tripQuery (r : Request)
  | integrityQuery (r : Request)
  | peekEvents (r : Request)
  | stationSet (r : Request)
  | start (r : Request)
  | stationStop (r : Request)
  | isolate (r : Request)
  | release (r : Request)
  | clearFault (r : Request)
  | unassign (r : Request)
  | pin (r : Request)
  | unpin (r : Request)
  | sampleNow (r : Request)
  | sweepSet (r : Request)
  | lineSet (r : Request)
  | clearLine (r : Request)
  | clearAnalyser (r : Request)
  | bankSet (r : Request)
  | tripSet (r : Request)
  | run (r : Request)
  | modeStop (r : Request)
  | resume (r : Request)
  | tripNow (r : Request)
  | takeEvents (r : Request)
  | noticeSet (r : Request)
  | clearNotice (r : Request)
  | castSet (r : Request)
  | integrityClear (r : Request)
  | restartCold (r : Request)
  | restartWarm (r : Request)
  /-- A request of a kind below 80h that is not in the catalogue. -/
  | unknownKind (kind : Byte) (r : Request)
  | coldRestart
  | warmRestart
  /-- `bytes` are the bytes of the frame that had arrived when the silence began, the lead byte first. -/
  | frameSilenceTimeout (p : Port) (bytes : List Byte)
  /-- `bytes` are all the bytes of the frame, the lead byte first and the two check bytes last. -/
  | frameCheckFail (p : Port) (bytes : List Byte)
  | reply (p : Port)
  | replySent (p : Port)
  | notice
  | eventCopy
  /-- `codes` are the 35 converter codes of the conversion, input 0 first. -/
  | conversion (codes : Vector Code 35)
  | changeoverEnd
  /-- `flow` is the sample-flow contact and `fault` the analyser fault contact as read at the first reading. -/
  | purgeEnd (flow fault : Bool)
  /-- `fault` is the analyser fault contact as read at this reading. -/
  | reading (fault : Bool)
  | settleExpiry (station : StationIx)
  | roundTimerExpiry
  | markLead
  | markPulseEnd
  | markRise
  | markFall
  | linkLost
  | startGapEnd
  | inchPeriod (station : StationIx)
  | inchPulseEnd (station : StationIx)
  | reversalPauseEnd (station : StationIx)
  | timeout (station : StationIx)
  | persistenceExpiry
  /-- `open_` is the new state of the pump-run contact. -/
  | pumpRunContact (open_ : Bool)
  /-- `closed` is the new state of the flame-arrestor contact. -/
  | arrestorContact (closed : Bool)
  /-- `others` says whether another part asserts the shared TRIP line after the change (log 12). -/
  | tripLineSensed (others : Bool)
  | tripPulseEnd
  | scrub
  /-- `word` is the word whose pending write-back is made. -/
  | writeBack (word : WordIx)
  | blinkDropEnd
  /-- The three header bytes of a frame whose length byte is above 120. -/
  | frameLengthDiscard (p : Port) (address kind length : Byte)
  | frameIgnored (p : Port) (address kind : Byte) (body : List Byte)
  | powerLoss
  deriving DecidableEq, Repr

end Sys2Proof
end

