-- ==== Sys2Proof/Machine/Types.lean ====
section
/-! DEFINITION. The kinds of record the part's state is made of, block by block, in the manual's own names. -/

namespace Sys2Proof.Machine

/-! ### Station table (chapter 1) -/

/-- The six causes a FAULTED station can carry (R8), in the code order of R218. -/
inductive FaultCause where
  | valveStall | valveTimeout | positionLine | flowLine | sampleLine | record
  deriving DecidableEq, Repr, Inhabited

/-- Station state (R4). The fault cause stands inside FAULTED, since it is present there and nowhere else (R8). -/
inductive StationState where
  | unused | standby | producing | quarantined | isolated
  | faulted (cause : FaultCause)
  deriving DecidableEq, Repr, Inhabited

/-- Motion status (R4). -/
inductive MotionStatus where
  | none | queued | running | inching | reversing
  deriving DecidableEq, Repr

/-- The quality areas I, II and III (R85). -/
inductive Area where
  | poor | fair | good
  deriving DecidableEq, Repr, Inhabited

/-- The two spare sample lines (section 6.3). -/
inductive SpareLine where
  | line17 | line18
  deriving DecidableEq, Repr, Inhabited

/-- The configuration part of a station record (R2). -/
structure StationConfig where
  k : Nat
  vMin : Nat
  vMax : Nat
  startOpening : Nat
  sniffOpening : Nat
  markA : Fin 4
  markB : Fin 4
  eventCode : Nat
  recoveryCount : Nat
  quarantineLimit : Nat
  standbyLine : Option SpareLine
  pinned : Bool
  manualOpening : Nat
  deriving DecidableEq, Repr, Inhabited

/-- A filed quality result (R6). -/
structure QualityResult where
  c : Nat
  o : Nat
  readings : Nat
  overRange : Bool
  start : Nat
  filed : Nat
  area : Area
  line : Line
  deriving DecidableEq, Repr, Inhabited

/-- The flow record of a station (R7). -/
structure FlowRecord where
  q : Nat
  dp : Nat
  saturated : Bool
  clamped : Bool
  time : Nat
  valid : Bool
  deriving DecidableEq, Repr, Inhabited

/-- The working part of a station record (R4 to R8), less the sample line in use and the motion status, which the
sampler's claims and the drive's motions determine (log 20). -/
structure StationWork where
  state : StationState
  target : Nat
  position : Option Nat
  lastMoveDone : Option Nat
  settleExpiry : Option Nat
  fresh : Bool
  quality : Option QualityResult
  flow : FlowRecord
  recoveryRun : Nat
  quarantineCount : Nat
  damaged : Bool
  restartMark : Bool
  deriving DecidableEq, Repr, Inhabited

/-- The working fields a record's words hold (R4 to R8), for the placement the manual leaves open (log 23). `quality` is whether
a quality result is present, and the fields of that name are its parts. -/
inductive WorkField where
  | state | sampleLine | target | position | motionStatus | lastMoveDone | settleExpiry | fresh
  | quality | qualityC | qualityO | qualityReadings | qualityOverRange | qualityStart | qualityFiled | qualityArea | qualityLine
  | flowQ | flowDp | flowSaturated | flowClamped | flowTime | flowValid
  | recoveryRun | quarantineCount | damaged | restartMark
  deriving DecidableEq, Repr

/-- One station record (R1). -/
structure Station where
  cfg : StationConfig
  work : StationWork
  deriving DecidableEq, Repr, Inhabited

/-! ### Measurement unit (chapter 2) -/

/-- Status of an analog input (R36), in the code order of R217. -/
inductive InputStatus where
  | notConverted | fault | zero | good | saturated
  deriving DecidableEq, Repr

/-- One entry of the input table (R36); its value is `inputValue`. -/
structure InputEntry where
  code : Nat
  status : InputStatus
  time : Nat
  deriving DecidableEq, Repr

/-- A flow window in progress (R43). -/
structure FlowWindow where
  sum : Nat
  count : Nat
  length : Nat
  saturated : Bool
  deriving DecidableEq, Repr

/-- What a window that ends hands on (R43, R44, R48). -/
inductive WindowResult where
  | valid (q dp : Nat) (saturated clamped : Bool) (time : Nat)
  | invalid (time : Nat)
  deriving DecidableEq, Repr

structure Measurement where
  inputs : Vector InputEntry 35
  windows : Vector (Option FlowWindow) 16
  parked : Vector (Option WindowResult) 16
  deriving DecidableEq, Repr

/-! ### Sampler (chapter 3) -/

/-- Sampler phase (R54), in the code order of R217. -/
inductive SamplerPhase where
  | stopped | idle | purging | reading | paused
  deriving DecidableEq, Repr

/-- Source of a sample, with the station it is for (R53). -/
inductive SampleSource where
  | demand (station : StationIx)
  | reference
  | sweep (station : StationIx)
  deriving DecidableEq, Repr

/-- The two classes of sample line (R56). -/
inductive LineClass where
  | near | far
  deriving DecidableEq, Repr, Inhabited

/-- The sample in flight (R53). `due` is the instant of its next event, in ms: the end of the changeover, of the purge, or
the next reading (R67 to R69). -/
structure Sample where
  source : SampleSource
  line : Line
  purge : Nat
  readings : Nat
  start : Option Nat
  taken : Nat
  methaneSum : Nat
  oxygenSum : Nat
  saturated : Bool
  due : Nat
  deriving DecidableEq, Repr

/-- The result of a completed station sample (R70). -/
structure StationResult where
  station : StationIx
  c : Nat
  o : Nat
  readings : Nat
  overRange : Bool
  start : Nat
  line : Line
  deriving DecidableEq, Repr

/-- The last reference result (R53, R76). -/
structure ReferenceResult where
  c : Nat
  o : Nat
  time : Nat
  pass : Bool
  deriving DecidableEq, Repr

/-- The sweep list as words 448 to 455 hold it (R59): 32 entries, each a station or 0, which is `none`. The list ends in front
of the first 0. -/
abbrev SweepEntries := Vector (Option StationIx) 32

structure Sampler where
  phase : SamplerPhase
  inFlight : Option Sample
  sweepEntries : SweepEntries
  pointer : Nat
  passSampled : Bool
  passCount : Nat
  referenceDue : Bool
  demand : List StationIx
  claim17 : Option StationIx
  claim18 : Option StationIx
  marks : Vector Bool 19
  classes : Vector LineClass 19
  faultCount : Nat
  analyserFault : Bool
  parked : Option StationResult
  lastReference : Option ReferenceResult
  deriving DecidableEq, Repr

/-! ### Balancer (chapter 5) -/

/-- Kind of a round event (R99). -/
inductive RoundKind where
  | round | assessment
  deriving DecidableEq, Repr

/-- Outcome of a round event (R99), in the order R99 lists them. -/
inductive RoundOutcome where
  | noFlow | incomplete | held | band | deficit | shortfall | surplus | surplusNone
  deriving DecidableEq, Repr

/-- One adjustment of a round (R99). -/
structure Adjustment where
  station : StationIx
  old : Nat
  new : Nat
  deriving DecidableEq, Repr

/-- The last-round record (R99). `mixture` is C and O; `predicted` is C' and O'. -/
structure RoundRecord where
  time : Nat
  kind : RoundKind
  outcome : RoundOutcome
  participants : Nat
  known : Nat
  knownFlow : Nat
  unknownFlow : Nat
  mixture : Option (Nat × Nat)
  purityBreached : Bool
  oxygenBreached : Bool
  adjustments : List Adjustment
  predicted : Option (Nat × Nat)
  deriving DecidableEq, Repr

structure Balancer where
  purityLow : Bool
  o2High : Bool
  shortfall : Bool
  lastRound : Option RoundRecord
  deriving DecidableEq, Repr

/-! ### Valve drive (chapter 6) -/

/-- Sense in which a valve motor runs (R122). -/
inductive Direction where
  | opening | closing
  deriving DecidableEq, Repr

/-- State of one motor output (R121). -/
inductive MotorOutput where
  | off | opening | closing
  deriving DecidableEq, Repr

/-- Phase of a motion with the fields of R122 that the phase uses. Instants are in ms. `pulse` is the inch pulse in
progress, with the instant it ends. -/
inductive MotionPhase where
  | running (direction : Direction) (stallRef : Option Nat) (stallAt : Nat)
  | inching (pulses : Nat) (periodStart periodEnd : Nat) (pulse : Option (Direction × Nat))
  | reversing (pauseEnd : Nat)
  deriving DecidableEq, Repr

/-- A motion record (R122). `lastSeen` is the last present position the drive saw for the station (R134). -/
structure Motion where
  station : StationIx
  target : Nat
  grantAt : Nat
  lastSeen : Nat
  phase : MotionPhase
  deriving DecidableEq, Repr

/-- An entry of the motion queue (R121). -/
structure QueuedMove where
  station : StationIx
  target : Nat
  deriving DecidableEq, Repr

structure Drive where
  queue : List QueuedMove
  motions : List Motion
  lastMotorStart : Option Nat
  deriving DecidableEq, Repr

/-! ### Trip unit and bank link (chapter 8) -/

/-- Sources of a trip term, in the code order of R175. -/
inductive TermSource where
  | none | purityLow | o2High | suctionLow | pumpStopped | arrestorHot | linkTrip | recordDamaged | analyserFault
  | shortfall
  deriving DecidableEq, Repr, Inhabited

structure TripTerm where
  source : TermSource
  invert : Bool
  deriving DecidableEq, Repr, Inhabited

/-- Trip functions, in the code order of R175. -/
inductive TripFunction where
  | off | a | aAndB | aOrB | any | all | twoOfThree
  deriving DecidableEq, Repr, Inhabited

/-- Pulse widths of the trip line, in the code order of R175. -/
inductive PulseWidth where
  | s1 | s2 | s5 | held
  deriving DecidableEq, Repr, Inhabited

inductive TripLatch where
  | clear | localTrip | linkTrip
  deriving DecidableEq, Repr

inductive TripOrigin where
  | function | command
  deriving DecidableEq, Repr

/-- A term as a trip record keeps it (R171). -/
structure TermReading where
  source : TermSource
  invert : Bool
  condition : Bool
  value : Bool
  deriving DecidableEq, Repr

/-- The trip record (R171). -/
structure TripRecord where
  time : Nat
  origin : TripOrigin
  latch : TripLatch
  function : TripFunction
  persistence : Nat
  termA : TermReading
  termB : TermReading
  termC : TermReading
  deriving DecidableEq, Repr

/-- The trip line (R165, R172): `pulse` holds the instant the timed pulse ends. -/
inductive TripLine where
  | released
  | pulse (until_ : Nat)
  | held
  deriving DecidableEq, Repr

/-- Working state of the trip unit (R165); `timer` is the instant the persistence timer started. -/
structure TripUnit where
  output : Bool
  timer : Option Nat
  latch : TripLatch
  record : Option TripRecord
  line : TripLine
  linkDrive : Bool
  deriving DecidableEq, Repr

inductive LinkRole where
  | alone | master | slave
  deriving DecidableEq, Repr, Inhabited

inductive LinkState where
  | inStep | lost
  deriving DecidableEq, Repr

/-- Working state of the bank link (R177). `markSince` is the mark watch of a SLAVE: the instant since which it
has sensed MARK active. -/
structure Link where
  state : LinkState
  hold : Bool
  lastMark : Option Nat
  markSince : Option Nat
  inStepSince : Nat
  markDrive : Bool
  markPulseEnd : Option Nat
  deriving DecidableEq, Repr

/-! ### Bank control (chapter 7) -/

/-- Bank mode, in the code order of R157. -/
inductive BankMode where
  | idle | running | tripped
  deriving DecidableEq, Repr

/-- Bank control (R147); `roundTimer` is the next expiry while the timer runs. -/
structure BankControl where
  mode : BankMode
  isolation : Bool
  roundTimer : Option Nat
  deriving DecidableEq, Repr

inductive RestartKind where
  | cold | warm
  deriving DecidableEq, Repr

/-! ### Events and notification (chapter 10) -/

inductive Category where
  | station | sampling | drive | bank
  deriving DecidableEq, Repr

/-- A set of categories: the flags, the masks, and the categories a pending notice carries. -/
structure CategorySet where
  station : Bool
  sampling : Bool
  drive : Bool
  bank : Bool
  deriving DecidableEq, Repr, Inhabited

/-- The 21 event kinds in the order of the kind table of R197. -/
inductive EventKind where
  | state | quality | adjusted | exhausted | analyserFault | lineFault | substituted | referenceFail | stall | timeout
  | miss | positionLine | mode | trip | roundShortfall | roundIncomplete | roundNoFlow | linkLost | linkBack
  | recordDamaged | flowLine
  deriving DecidableEq, Repr

inductive Edge where
  | set | clear
  deriving DecidableEq, Repr

/-- An event record (R197); the category is fixed by the kind. -/
structure EventRecord where
  kind : EventKind
  station : Nat
  edge : Option Edge
  time : Nat
  value : Option Nat
  deriving DecidableEq, Repr

/-- A copy for the monitor (R206): the record with its station translated, and the queued flag. -/
structure EventCopy where
  record : EventRecord
  queued : Bool
  deriving DecidableEq, Repr

structure PendingNotice where
  class_ : Nat
  categories : CategorySet
  deriving DecidableEq, Repr

/-- Working state of the event unit (R196); `blinkDrop` is the instant a blink drop ends. -/
structure EventUnit where
  queue : List EventRecord
  overflow : Nat
  flags : CategorySet
  blinkDrop : Option Nat
  notices : List PendingNotice
  backlog : List EventCopy
  drops : Nat
  deriving DecidableEq, Repr

/-! ### Settings (R186) -/

/-- The bank settings of words 384 to 403, 406 and 407, in the order of their words. Counts of steps where R145 and R177
carry a setting so. -/
structure BankSettings where
  purityFloor : Nat
  purityHysteresis : Nat
  oxygenCeiling : Nat
  oxygenHysteresis : Nat
  tripFloor : Nat
  tripCeiling : Nat
  maxStepDown : Nat
  stepUp : Nat
  unknownShare : Nat
  staleLimit : Nat
  mark0 : Nat
  mark1 : Nat
  mark2 : Nat
  mark3 : Nat
  windowLength : Nat
  suctionLimit : Nat
  nearPurge : Nat
  nearCount : Nat
  farPurge : Nat
  farCount : Nat
  referenceInterval : Nat
  slotCount : Nat
  startGap : Nat
  inchBand : Nat
  inchOn : Nat
  inchPeriod : Nat
  stallTime : Nat
  moveTimeout : Nat
  settleTime : Nat
  balancePeriod : Nat
  role : LinkRole
  holdLead : Nat
  scrubCode : Nat
  deriving DecidableEq, Repr, Inhabited

/-- Words 404 and 405 (R176). -/
structure TripSettings where
  termA : TripTerm
  termB : TripTerm
  termC : TripTerm
  function : TripFunction
  persistence : Nat
  pulseWidth : PulseWidth
  deriving DecidableEq, Repr, Inhabited

inductive NoticeMode where
  | off | line | frames
  deriving DecidableEq, Repr, Inhabited

/-- Word 408 (R196). A set bit of `mask` masks its category. -/
structure NoticeSettings where
  mode : NoticeMode
  mask : CategorySet
  classCount : Nat
  noRetro : Bool
  blink : Bool
  deriving DecidableEq, Repr, Inhabited

/-- Word 409 (R196). -/
structure CastSettings where
  mask : CategorySet
  base : Nat
  count : Nat
  bankEvents : Bool
  monitorBase : Nat
  deriving DecidableEq, Repr, Inhabited

/-- All settings kept in protected words 384 to 409. -/
structure Settings where
  bank : BankSettings
  trip : TripSettings
  notice : NoticeSettings
  cast : CastSettings
  deriving DecidableEq, Repr, Inhabited

/-! ### Protected record memory (chapter 9) -/

/-- What a read of a word finds (R187). -/
inductive ReadOutcome where
  | good | corrected | damaged
  deriving DecidableEq, Repr, Inhabited

/-- The memory's own record of its health (R185). `wrongBits` lists the words that hold wrong bits, each with the set of
them, in rising order of word; a word not listed has none. `scrubDue` is the instant of the next scrub read. -/
structure Memory where
  wrongBits : List (Nat × WordBits)
  writeBacks : List Nat
  corrections : Nat
  damageList : List Nat
  damageOverflow : Nat
  damagedSetting : Bool
  scrubPointer : Nat
  scrubDue : Nat
  deriving DecidableEq, Repr

/-! ### Ports (chapter 11) -/

/-- Receive framing state with the bytes of the frame taken so far, in the order they came (R209, R211). -/
inductive Receiver where
  | hunt
  | header (taken : List Byte)
  | body (address kind length : Byte) (taken : List Byte)
  | check (address kind length : Byte) (body taken : List Byte)
  deriving DecidableEq, Repr

/-- A held request (R209, R213): its kind, the reply body formed for it, whether that reply is being sent, and the restart
it asks for. -/
structure HeldRequest where
  kind : Byte
  reply : List Byte
  sending : Bool
  restart : Option RestartKind
  deriving DecidableEq, Repr

/-- A frame the transmitter is sending (R209, R214), and the instant its last byte ends. -/
structure SentFrame where
  address : Byte
  kind : Byte
  body : List Byte
  until_ : Nat
  deriving DecidableEq, Repr

structure PortState where
  receiver : Receiver
  held : Option HeldRequest
  transmitter : Option SentFrame
  deriving DecidableEq, Repr

/-- Field inputs whose level the part reads (R166, R167, R177, R209). -/
structure Pins where
  straps : Nat
  pumpOpen : Bool
  arrestorClosed : Bool
  tripLineOthers : Bool
  markActive : Bool
  deriving DecidableEq, Repr

end Sys2Proof.Machine
end

