-- ==== Sys2Proof/Config.lean ====
section
/-! DEFINITION. What the part fixes, and the free values: constants with no body, of which nothing can be proved but that
they are there. -/

namespace Sys2Proof.Config

open Sys2Proof.Machine

/-- The bank clock stays here once it reaches it (R148). -/
def clockMax : Nat := 4294967295

/-- The deadband, in per mille (section 6.4 of chapter 6, R124). -/
def deadband : Nat := 5

/-- A motion that has given this many inch pulses ends as a miss at its next period (R132). -/
def inchPulses : Nat := 20

/-- The reversal pause, in ms (R134). -/
def reversalPause : Nat := 2000

/-- The changeover of the sample selector, in ms (R67). -/
def changeover : Nat := 2000

/-- The time between two readings of one sample, in ms (R69). -/
def readingGap : Nat := 2000

/-- The demand queue holds at most this many entries (R62). -/
def demandCapacity : Nat := 6

/-- The sweep list holds at most this many entries (R59). -/
def sweepCapacity : Nat := 32

/-- The event queue holds at most this many records (R198). -/
def eventCapacity : Nat := 24

/-- The monitor backlog holds at most this many copies (R207). -/
def backlogCapacity : Nat := 8

/-- The damage list holds at most this many words (R191). -/
def damageCapacity : Nat := 16

/-- A round lowers at most this many stations (R110). -/
def maxAdjustments : Nat := 4

/-- A blink drop lasts this long, in ms (R202). -/
def blinkTime : Nat := 50

/-- With a hold lead of 0 the MASTER drives MARK active for this long, in ms (R178). -/
def markPulse : Nat := 100

/-- MARK active for longer than 10 s loses the link; in steps of 0.1 s the first measure above 10 s, in ms (R181). -/
def markStuck : Nat := 10100

/-- A falling edge within this time of its rising edge completes a mark, in ms (R182). -/
def markComplete : Nat := 10000

/-- The family code and the part code that IDENT returns (R216). -/
def familyCode : Nat := 0x4F
def partCode : Nat := 0x0416

/-- FREE VALUE (log 6). What a read of a word with three or more wrong bits finds (R187): any of the three outcomes. -/
opaque manyWrongBits : Nat → WordBits → ReadOutcome

/-- FREE VALUE (log 6). The bit that such a word, read as corrected, holds wrong beside the data it was read as. -/
opaque remainingBit : Nat → WordBits → Fin 39

/-- FREE VALUES (log 6). The data such a word, read as good or as corrected, is read as, for each owner's words: of what the
constant gives only the fields that lie in the word are taken. -/
opaque misreadConfig : Nat → WordBits → StationConfig → StationConfig
opaque misreadWork : Nat → WordBits → StationWork → StationWork
opaque misreadSettings : Nat → WordBits → Settings → Settings
opaque misreadSweep : Nat → WordBits → SweepEntries → SweepEntries
opaque misreadClasses : Nat → WordBits → Vector LineClass 19 → Vector LineClass 19

/-- FREE VALUE (log 23). Whether a working word, of the sixteen, holds a working field or a part of it: the manual does not place
them. -/
opaque workWordHolds : WorkField → Fin 16 → Bool

/-- FREE VALUE (log 29). The value an analyser input would give a reading before its first conversion, which R51 says no
reading sees; by input number. -/
opaque unconvertedReading : Nat → Nat

end Sys2Proof.Config
end

