-- ==== Sys2Proof/Machine/Defaults.lean ====
section
/-! DEFINITION. Default settings and cold values, as each chapter's restart tables give them. -/

namespace Sys2Proof.Machine

/-- R2. -/
def StationConfig.default : StationConfig :=
  { k := 0, vMin := 100, vMax := 1000, startOpening := 500, sniffOpening := 50, markA := 0, markB := 1, eventCode := 0
    recoveryCount := 2, quarantineLimit := 3, standbyLine := none, pinned := false, manualOpening := 500 }

/-- A flow record after a restart: invalid, zero values (R9). -/
def FlowRecord.cold : FlowRecord :=
  { q := 0, dp := 0, saturated := false, clamped := false, time := 0, valid := false }

/-- The working part with every field at its cold value (R9). -/
def StationWork.cold : StationWork :=
  { state := .unused, target := 0, position := none, lastMoveDone := none, settleExpiry := none, fresh := false
    quality := none, flow := FlowRecord.cold, recoveryRun := 0, quarantineCount := 0, damaged := false
    restartMark := false }

def Station.cold : Station := { cfg := StationConfig.default, work := StationWork.cold }

/-- The defaults of words 384 to 403, 406 and 407 (R42, R50, R57, R83, R96, R145, R160, R177, R193). -/
def BankSettings.default : BankSettings :=
  { purityFloor := 300, purityHysteresis := 40, oxygenCeiling := 80, oxygenHysteresis := 10, tripFloor := 250
    tripCeiling := 120, maxStepDown := 300, stepUp := 50, unknownShare := 250, staleLimit := 1800
    mark0 := 150, mark1 := 250, mark2 := 350, mark3 := 450, windowLength := 4, suctionLimit := 10
    nearPurge := 30, nearCount := 2, farPurge := 90, farCount := 4, referenceInterval := 4
    slotCount := 2, startGap := 6, inchBand := 40, inchOn := 5, inchPeriod := 20, stallTime := 8, moveTimeout := 300
    settleTime := 60, balancePeriod := 120, role := .alone, holdLead := 4, scrubCode := 2 }

def TripTerm.default : TripTerm := { source := .none, invert := false }

/-- R165. -/
def TripSettings.default : TripSettings :=
  { termA := TripTerm.default, termB := TripTerm.default, termC := TripTerm.default, function := .off
    persistence := 0, pulseWidth := .held }

def CategorySet.empty : CategorySet := { station := false, sampling := false, drive := false, bank := false }

/-- R196. -/
def NoticeSettings.default : NoticeSettings :=
  { mode := .off, mask := CategorySet.empty, classCount := 1, noRetro := false, blink := false }

/-- R196. -/
def CastSettings.default : CastSettings :=
  { mask := CategorySet.empty, base := 1, count := 0, bankEvents := false, monitorBase := 1 }

def Settings.default : Settings :=
  { bank := BankSettings.default, trip := TripSettings.default, notice := NoticeSettings.default
    cast := CastSettings.default }

/-- R38; the conversion time is the model's choice (log 10). -/
def InputEntry.cold : InputEntry := { code := 0, status := .notConverted, time := 0 }

/-- Section 2.8. -/
def Measurement.cold : Measurement :=
  { inputs := Vector.replicate 35 InputEntry.cold, windows := Vector.replicate 16 none
    parked := Vector.replicate 16 none }

/-- An empty sweep list: every entry 0 (R59). -/
def noEntries : SweepEntries := Vector.replicate 32 none

/-- R82, with the sweep list and the line classes a restart leaves. -/
def Sampler.cold (sweepEntries : SweepEntries) (classes : Vector LineClass 19) : Sampler :=
  { phase := .stopped, inFlight := none, sweepEntries := sweepEntries, pointer := 0, passSampled := false, passCount := 0
    referenceDue := false, demand := [], claim17 := none, claim18 := none, marks := Vector.replicate 19 false
    classes := classes, faultCount := 0, analyserFault := false, parked := none, lastReference := none }

/-- Every line NEAR (R56). -/
def allNear : Vector LineClass 19 := Vector.replicate 19 .near

/-- R99. -/
def Balancer.cold : Balancer := { purityLow := false, o2High := false, shortfall := false, lastRound := none }

/-- R123. -/
def Drive.cold : Drive := { queue := [], motions := [], lastMotorStart := none }

/-- R165. -/
def TripUnit.cold : TripUnit :=
  { output := false, timer := none, latch := .clear, record := none, line := .released, linkDrive := false }

/-- R177; a SLAVE that finds MARK active at the restart times it from then on. -/
def Link.cold (watched : Bool) : Link :=
  { state := .inStep, hold := false, lastMark := none, markSince := if watched then some 0 else none
    inStepSince := 0, markDrive := false, markPulseEnd := none }

/-- R147, with the timer as the restart leaves it (R159). -/
def BankControl.cold (roundTimer : Option Nat) : BankControl :=
  { mode := .idle, isolation := false, roundTimer := roundTimer }

/-- The scrub interval of a code, in ms (R193). -/
def scrubInterval : Nat → Nat
  | 0 => 100 | 1 => 200 | 2 => 500 | 3 => 1000 | 4 => 2000 | 5 => 5000 | 6 => 10000 | _ => 20000

/-- R185: every word good. -/
def Memory.cold : Memory :=
  { wrongBits := [], writeBacks := [], corrections := 0, damageList := [], damageOverflow := 0, damagedSetting := false
    scrubPointer := 0, scrubDue := scrubInterval 2 }

/-- R196. -/
def EventUnit.cold : EventUnit :=
  { queue := [], overflow := 0, flags := CategorySet.empty, blinkDrop := none, notices := [], backlog := [], drops := 0 }

/-- R209: HUNT, no held request, a free transmitter. -/
def PortState.cold : PortState := { receiver := .hunt, held := none, transmitter := none }

/-- Field levels at the reset the model starts from: the model's choice (log 9). -/
def Pins.quiet : Pins :=
  { straps := 1, pumpOpen := false, arrestorClosed := false, tripLineOthers := false, markActive := false }

/-- The part's own address from its straps: 1..30, or 0 for none (R209). -/
def addressOf (straps : Nat) : Nat := if 1 ≤ straps ∧ straps ≤ 30 then straps else 0

end Sys2Proof.Machine
end

