-- ==== Sys2Proof/Machine/State.lean ====
section
/-! DEFINITION. The state of the part, its reset, and the reasons a step could stop. -/

namespace Sys2Proof.Machine

/-- Reasons to stop with a fault. There are none: the manual describes no stop of the part. Every command has the effect
the manual gives it, is answered with a refusal status, or changes nothing. -/
inductive Fault where
  deriving DecidableEq, Repr

/-- Reasons to refuse a command. -/
inductive Refusal where
  /-- Raised by an arm of `exec` for a command with no meaning yet; safe. No arm raises it. -/
  | notModelled (mnemonic : String)
  deriving DecidableEq, Repr

/-- Everything the manual gives the part, block by block, with the model's own fields first (log 1, 11, 27) and the queue
of waiting commands last. -/
structure State where
  elapsed : Nat
  conversionDue : Nat
  powered : Bool
  restartDue : Option RestartKind
  address : Nat
  pins : Pins
  stations : Vector Station 16
  settings : Settings
  measure : Measurement
  sampler : Sampler
  balancer : Balancer
  drive : Drive
  trip : TripUnit
  link : Link
  bank : BankControl
  memory : Memory
  events : EventUnit
  control : PortState
  monitor : PortState
  pending : List Instr
  deriving DecidableEq, Repr

/-- The part as a cold restart leaves it (R162), with the field levels and the waiting commands as they stand. -/
def State.cold (pins : Pins) (pending : List Instr) : State :=
  { elapsed := 0
    conversionDue := 1000
    powered := true
    restartDue := none
    address := addressOf pins.straps
    pins := pins
    stations := Vector.replicate 16 Station.cold
    settings := Settings.default
    measure := Measurement.cold
    sampler := Sampler.cold noEntries allNear
    balancer := Balancer.cold
    drive := Drive.cold
    trip := TripUnit.cold
    link := Link.cold false
    bank := BankControl.cold (some 120)
    memory := Memory.cold
    events := EventUnit.cold
    control := PortState.cold
    monitor := PortState.cold
    pending := pending }

/-- The machine right after reset: the cold restart of power-on (R162) with quiet field lines (log 9). -/
def State.reset : State := State.cold Pins.quiet []

end Sys2Proof.Machine
end

