-- ==== Sys2Proof/Machine/Ops.lean ====
section
/-! DEFINITION. Named operations the blocks share: time, access to station records, the views that one home determines, the
marks of protected words, and how a piece of work gets at them. -/

namespace Sys2Proof.Machine

/-- What a meaning answers. -/
abbrev Result := Host.Outcome State Fault Refusal

/-! ### Time (R148, R149, log 1) -/

/-- The bank clock: whole seconds since the restart, held at its maximum (R148). -/
def bankClock (s : State) : Nat := min (s.elapsed / 1000) Config.clockMax

/-- Lets time pass up to the instant `t`, in ms, if it has not been reached (log 1). -/
def passUntil (t : Nat) (s : State) : State := { s with elapsed := max s.elapsed t }

/-- The clock reading `seconds` from now, absent where it would lie above the clock's maximum (R149). -/
def expiryAfter (s : State) (seconds : Nat) : Option Nat :=
  if bankClock s + seconds ≤ Config.clockMax then some (bankClock s + seconds) else none

/-- A clock reading as an instant in ms. -/
def instantOf (reading : Nat) : Nat := reading * 1000

/-! ### Station records -/

/-- The number of a station, 1..16 (section 6.3). -/
def stationNumber (i : StationIx) : Nat := i.val + 1

/-- All stations in ascending number. -/
def allStations : List StationIx := List.finRange 16

/-- The station a number 1..16 names. -/
def stationOf (n : Nat) : Option StationIx :=
  if h : 1 ≤ n ∧ n ≤ 16 then some ⟨n - 1, by omega⟩ else none

/-- The record of a station. -/
def State.station (s : State) (i : StationIx) : Station := s.stations[i.val]

/-- The working part of a station's record. -/
def State.work (s : State) (i : StationIx) : StationWork := (s.station i).work

/-- The configuration part of a station's record. -/
def State.cfg (s : State) (i : StationIx) : StationConfig := (s.station i).cfg

/-- Replaces a station's record. -/
def State.setStation (s : State) (i : StationIx) (r : Station) : State :=
  { s with stations := s.stations.set i.val r }

/-- Replaces the working part of a station's record. -/
def State.setWork (s : State) (i : StationIx) (w : StationWork) : State :=
  s.setStation i { s.station i with work := w }

/-- Replaces the configuration part of a station's record. -/
def State.setCfg (s : State) (i : StationIx) (c : StationConfig) : State :=
  s.setStation i { s.station i with cfg := c }

/-- Runs `f` for every station in ascending number. -/
def forStations (f : StationIx → State → State) (s : State) : State :=
  allStations.foldl (fun t i => f i t) s

/-- UNUSED is the one state of a station that is not assigned (section 1.5). -/
def StationState.assigned : StationState → Bool
  | .unused => false
  | _ => true

/-- PRODUCING or QUARANTINED: the states that are sampled and take part in rounds (section 1.5). -/
def StationState.active : StationState → Bool
  | .producing => true
  | .quarantined => true
  | _ => false

/-- FAULTED with VALVE_STALL, VALVE_TIMEOUT or POSITION_LINE: a valve the drive cannot move or cannot see (R11, R142). -/
def StationState.valveFault : StationState → Bool
  | .faulted .valveStall => true
  | .faulted .valveTimeout => true
  | .faulted .positionLine => true
  | _ => false

/-! ### Views (log 20) -/

/-- The line number of a spare line. -/
def SpareLine.line : SpareLine → Line
  | .line17 => 17
  | .line18 => 18

/-- A station's own line, whose number is the station's (section 6.3). -/
def ownLine (i : StationIx) : Line := ⟨i.val + 1, by omega⟩

/-- The sample line in use: the spare line a station has claimed, else its own (R4, R75). -/
def lineInUse (s : State) (i : StationIx) : Line :=
  if s.sampler.claim17 = some i then SpareLine.line17.line
  else if s.sampler.claim18 = some i then SpareLine.line18.line
  else ownLine i

/-- The stations of stored sweep entries, up to the first 0 (R59). -/
def stationsUpToEnd : List (Option StationIx) → List StationIx
  | some i :: rest => i :: stationsUpToEnd rest
  | _ => []

/-- The sweep list (R59). -/
def Sampler.sweepList (k : Sampler) : List StationIx := stationsUpToEnd k.sweepEntries.toList

/-- The sweep entries whose entry `k` is `f k`. -/
def entriesFrom (f : Nat → Option StationIx) : SweepEntries := ⟨((List.range 32).map f).toArray, by simp⟩

/-- A sweep list as it is stored: 0 in every entry after its end (R59). -/
def entriesOf (l : List StationIx) : SweepEntries := entriesFrom (l[·]?)

/-- A station is sampleable when it is PRODUCING or QUARANTINED and its line in use is unmarked (R55). -/
def sampleable (s : State) (i : StationIx) : Bool :=
  (s.work i).state.active && !s.sampler.marks[(lineInUse s i).val]

/-- The motion in progress for a station. -/
def motionOf (s : State) (i : StationIx) : Option Motion := s.drive.motions.find? (fun m => m.station = i)

/-- Whether a station has an entry in the motion queue. -/
def queued (s : State) (i : StationIx) : Bool := s.drive.queue.any (fun e => e.station = i)

def MotionPhase.status : MotionPhase → MotionStatus
  | .running .. => .running
  | .inching .. => .inching
  | .reversing .. => .reversing

/-- Motion status: the drive's view of the station (R4, R122). -/
def motionStatus (s : State) (i : StationIx) : MotionStatus :=
  match motionOf s i with
  | some m => m.phase.status
  | none => if queued s i then .queued else .none

/-- The motor output of a motion: on while RUNNING or while an inch pulse is on (R121, R146). -/
def MotionPhase.motor : MotionPhase → MotorOutput
  | .running .opening _ _ => .opening
  | .running .closing _ _ => .closing
  | .inching _ _ _ (some (.opening, _)) => .opening
  | .inching _ _ _ (some (.closing, _)) => .closing
  | _ => .off

/-- The motor output of a station (R121, R146). -/
def motorOutput (s : State) (i : StationIx) : MotorOutput :=
  match motionOf s i with
  | some m => m.phase.motor
  | none => .off

/-- The station a sample in flight is for (R53). -/
def SampleSource.station? : SampleSource → Option StationIx
  | .demand i => some i
  | .sweep i => some i
  | .reference => none

/-- The selector: set to the line of the sample in flight, else closed (R54). -/
def selector (s : State) : Option Line := s.sampler.inFlight.map Sample.line

/-- Two openings that differ by `d` or less. -/
def within (a b d : Nat) : Bool := a ≤ b + d && b ≤ a + d

/-! ### Marks of protected words (R185, R187, log 5) -/

/-- The wrong bits of a word. -/
def wrongBitsIn (l : List (Nat × WordBits)) (w : Nat) : WordBits :=
  match l.find? (fun e => e.1 = w) with
  | some e => e.2
  | none => 0

/-- Sets the wrong bits of a word, keeping the list in rising order with no empty entry. -/
def setWrongBits (w : Nat) (m : WordBits) : List (Nat × WordBits) → List (Nat × WordBits)
  | [] => if m = 0 then [] else [(w, m)]
  | e :: rest =>
    if e.1 < w then e :: setWrongBits w m rest
    else if e.1 = w then (if m = 0 then rest else (w, m) :: rest)
    else if m = 0 then e :: rest else (w, m) :: e :: rest

/-- The number of wrong bits in a mask. -/
def countBits (m : WordBits) : Nat := (List.range 39).countP (fun k => m.getLsbD k)

/-- The canonical form of the wrong-bit list: words in rising order, below 512, none with no wrong bit. -/
def Memory.wf (m : Memory) : Bool :=
  (m.wrongBits.map Prod.fst).Pairwise (· < ·) && m.wrongBits.all (fun e => e.1 < 512 && e.2 ≠ 0)

/-- No word holds a wrong bit, and no write-back is pending. -/
abbrev Memory.Clean (m : Memory) : Prop := m.wrongBits = [] ∧ m.writeBacks = []

/-- A word written with fresh check bits: it holds no wrong bit, and a write-back pending for it is dropped (R187, R188). -/
def Memory.rewrite (m : Memory) (w : Nat) : Memory :=
  { m with wrongBits := setWrongBits w 0 m.wrongBits, writeBacks := m.writeBacks.filter (· ≠ w) }

/-- Full writes of several words. -/
def rewriteWords (ws : List Nat) (s : State) : State :=
  { s with memory := ws.foldl Memory.rewrite s.memory }

/-- The first word of a station's record (R1). -/
def recordBase (i : StationIx) : Nat := 24 * i.val

/-- The configuration words of a station that hold fields (R1). -/
def configWords (i : StationIx) : List Nat := (List.range 6).map (recordBase i + ·)

/-- The working words of a station (R1). -/
def workWords (i : StationIx) : List Nat := (List.range 16).map (recordBase i + 8 + ·)

/-- The working words of every station. -/
def allWorkWords : List Nat := allStations.flatMap workWords

/-- The words of a station's record that hold fields. -/
def recordReads (i : StationIx) : List Nat := configWords i ++ workWords i

/-! ### Work that reads protected words (R187, log 7) -/

/-- How a piece of work gets at protected words: it looks at some, and it stores fields of a station's working part. Each
operation says so where it does, and goes on with the state it is given back. -/
structure Access where
  look : List Nat → State → State
  store : StationIx → List WorkField → State → State

/-- Access to words that are all good: it changes nothing. -/
def plain : Access := ⟨fun _ s => s, fun _ _ s => s⟩

/-- A piece of a block's work. -/
abbrev Work := Access → State → State

/-- How a piece of work is carried out: the words it looks at before it begins, in the order it needs them, on the state as the
reads so far have left it; and the work. -/
abbrev Reader := (State → List Nat) → Work → State → State

/-- Work whose words are all good: a checked read changes nothing. -/
def plainly : Reader := fun _ work s => work plain s

/-- A piece of work that looks at no word before it begins. -/
def noWords : State → List Nat := fun _ => []

/-- Work that does nothing more once its words have been looked at. -/
def nothing : Work := fun _ s => s

/-- What a station stores in its working part (R4): the named fields, with the values they take. -/
def putWork (a : Access) (i : StationIx) (fields : List WorkField) (w : StationWork) (s : State) : State :=
  (a.store i fields s).setWork i w

end Sys2Proof.Machine
end

