-- ==== Sys2Proof/Machine/Events.lean ====
section
/-! DEFINITION. The event unit (chapter 10): raising an event, the category flags, notices, the attention line and the
monitor cast. -/

namespace Sys2Proof.Machine

/-! ### Category sets -/

def CategorySet.get (c : CategorySet) : Category → Bool
  | .station => c.station
  | .sampling => c.sampling
  | .drive => c.drive
  | .bank => c.bank

def CategorySet.put (c : CategorySet) (v : Bool) : Category → CategorySet
  | .station => { c with station := v }
  | .sampling => { c with sampling := v }
  | .drive => { c with drive := v }
  | .bank => { c with bank := v }

/-- The categories of `a` that are not in `b`. -/
def CategorySet.diff (a b : CategorySet) : CategorySet :=
  { station := a.station && !b.station, sampling := a.sampling && !b.sampling, drive := a.drive && !b.drive
    bank := a.bank && !b.bank }

def CategorySet.inter (a b : CategorySet) : CategorySet :=
  { station := a.station && b.station, sampling := a.sampling && b.sampling, drive := a.drive && b.drive
    bank := a.bank && b.bank }

def CategorySet.nonempty (c : CategorySet) : Bool := c.station || c.sampling || c.drive || c.bank

/-- A set of categories as a number, bit 0 STATION to bit 3 BANK (R217, byte 80). -/
def CategorySet.toNat (c : CategorySet) : Nat :=
  c.station.toNat + 2 * c.sampling.toNat + 4 * c.drive.toNat + 8 * c.bank.toNat

/-- The set a number 0..15 carries; bits above bit 3 are not looked at. -/
def CategorySet.ofNat (n : Nat) : CategorySet :=
  { station := n.testBit 0, sampling := n.testBit 1, drive := n.testBit 2, bank := n.testBit 3 }

/-- The four categories in the order R204 names. -/
def allCategories : List Category := [.station, .sampling, .drive, .bank]

/-- The category of an event kind (R197). -/
def EventKind.category : EventKind → Category
  | .state | .quality | .adjusted | .exhausted => .station
  | .analyserFault | .lineFault | .substituted | .referenceFail => .sampling
  | .stall | .timeout | .miss | .positionLine => .drive
  | .mode | .trip | .roundShortfall | .roundIncomplete | .roundNoFlow | .linkLost | .linkBack | .recordDamaged
  | .flowLine => .bank

/-! ### Notices (R203, R204) -/

/-- The class of a category's notice under a class count (R203). -/
def noticeClass (classCount : Nat) : Category → Nat
  | .station => 0
  | .sampling => if classCount = 4 then 1 else 0
  | .drive => if classCount = 4 then 2 else 0
  | .bank => if classCount = 4 then 3 else if classCount = 2 then 1 else 0

/-- A due notice joins the entry of its class, or a new entry at the tail (R203). -/
def joinNotice (cls : Nat) (c : Category) : List PendingNotice → List PendingNotice
  | [] => [{ class_ := cls, categories := CategorySet.empty.put true c }]
  | e :: rest =>
    if e.class_ = cls then { e with categories := e.categories.put true c } :: rest
    else e :: joinNotice cls c rest

/-- Withdraws the notices of some categories; an entry left with none is removed (R204). -/
def withdrawNotices (gone : CategorySet) (l : List PendingNotice) : List PendingNotice :=
  (l.map fun e => { e with categories := e.categories.diff gone }).filter fun e => e.categories.nonempty

/-- A notice of category `c` falls due (R203). -/
def EventUnit.noticeDue (n : NoticeSettings) (c : Category) (u : EventUnit) : EventUnit :=
  { u with notices := joinNotice (noticeClass n.classCount c) c u.notices }

/-! ### Flags (R198, R200, R202) -/

/-- A flag has gone from clear to set: it is signalled as the notification mode directs, unless masked (R198). A blink drop
in progress ends (R202). -/
def EventUnit.signal (n : NoticeSettings) (c : Category) (u : EventUnit) : EventUnit :=
  if n.mask.get c then u
  else match n.mode with
    | .off => u
    | .line => { u with blinkDrop := none }
    | .frames => u.noticeDue n c

/-- Sets a category flag (R198). A flag already set stays set and signals nothing. -/
def EventUnit.setFlag (n : NoticeSettings) (c : Category) (u : EventUnit) : EventUnit :=
  if u.flags.get c then u
  else EventUnit.signal n c { u with flags := u.flags.put true c }

/-! ### The monitor cast (R206, R207) -/

/-- Whether the cast settings select an event (R206). -/
def CastSettings.selects (k : CastSettings) (r : EventRecord) : Bool :=
  k.mask.get r.kind.category &&
    (if r.station = 0 then k.bankEvents else k.base ≤ r.station && r.station < k.base + k.count)

/-- The station number a copy carries (R206). -/
def CastSettings.translate (k : CastSettings) (station : Nat) : Nat :=
  if station = 0 then 0 else station - k.base + k.monitorBase

/-- Copies an event to the monitor backlog, or counts a drop where it is full (R206, R207). -/
def EventUnit.cast (k : CastSettings) (r : EventRecord) (queued : Bool) (u : EventUnit) : EventUnit :=
  if k.selects r then
    if u.backlog.length < Config.backlogCapacity then
      { u with backlog := u.backlog ++ [EventCopy.mk { r with station := k.translate r.station } queued] }
    else { u with drops := min (u.drops + 1) 255 }
  else u

/-! ### Raising an event (R198) -/

/-- Queues a record, or counts an overflow and sets the BANK flag where the queue is full (R198, step 1 and 2). -/
def EventUnit.enqueue (n : NoticeSettings) (r : EventRecord) (u : EventUnit) : EventUnit :=
  if u.queue.length < Config.eventCapacity then
    EventUnit.setFlag n r.kind.category { u with queue := u.queue ++ [r] }
  else EventUnit.setFlag n .bank { u with overflow := min (u.overflow + 1) 255 }

/-- The event unit takes a raised event whole (R198). -/
def EventUnit.take (n : NoticeSettings) (k : CastSettings) (r : EventRecord) (u : EventUnit) : EventUnit :=
  EventUnit.cast k r (u.queue.length < Config.eventCapacity) (u.enqueue n r)

/-- A block raises an event now (R197, R198). -/
def raise (kind : EventKind) (station : Nat) (edge : Option Edge) (value : Option Nat) (s : State) : State :=
  { s with
    events := s.events.take s.settings.notice s.settings.cast (EventRecord.mk kind station edge (bankClock s) value) }

/-! ### The attention line (R202) -/

/-- The unmasked flags that are set. -/
def EventUnit.unmasked (n : NoticeSettings) (u : EventUnit) : CategorySet := u.flags.diff n.mask

/-- The attention line is active in LINE mode while an unmasked flag is set and no blink drop runs (R202). -/
def attentionActive (s : State) : Bool :=
  s.settings.notice.mode = .line && (s.events.unmasked s.settings.notice).nonempty && s.events.blinkDrop = none

/-- Clears the named flags (R200): the overflow count with BANK, a blink drop where one is called for (R202), and the
notices of the flags are withdrawn (R204). -/
def EventUnit.clearFlags (now : Nat) (n : NoticeSettings) (gone : CategorySet) (u : EventUnit) : EventUnit :=
  let cleared := (u.unmasked n).inter gone
  let left := (u.unmasked n).diff gone
  let drop := n.mode = .line && n.blink && cleared.nonempty && left.nonempty && u.blinkDrop = none
  { u with
    flags := u.flags.diff gone
    overflow := if gone.bank then 0 else u.overflow
    notices := withdrawNotices gone u.notices
    blinkDrop := if drop then some (now + Config.blinkTime) else u.blinkDrop }

/-- The event unit follows changed notification settings, from `old` to `new` (R201 to R204). -/
def EventUnit.follow (old new : NoticeSettings) (u : EventUnit) : EventUnit :=
  let ends := new.mode ≠ old.mode || new.mask ≠ old.mask || (old.blink && !new.blink)
  let kept := if new.mode = .frames then withdrawNotices new.mask u.notices else []
  let u1 := { u with blinkDrop := if ends then none else u.blinkDrop, notices := kept }
  let entered := new.mode = .frames && old.mode ≠ .frames
  let owed := fun c => u.flags.get c && !new.mask.get c && (entered || old.mask.get c)
  if new.mode = .frames && !new.noRetro then
    allCategories.foldl (fun v c => if owed c then v.noticeDue new c else v) u1
  else u1

end Sys2Proof.Machine
end

