-- ==== Sys2Proof/Machine/Selection.lean ====
section
/-! DEFINITION. The sampler's choice of the next sample (chapter 3, sections 3.3 to 3.5), its claims, and what it does when a
station changes state (R35). -/

namespace Sys2Proof.Machine

/-- The purge time and reading count of a line's class (R57, R67). -/
def purgeOf (b : BankSettings) : LineClass → Nat
  | .near => b.nearPurge
  | .far => b.farPurge

def readingsOf (b : BankSettings) : LineClass → Nat
  | .near => b.nearCount
  | .far => b.farCount

/-- A sample is selected: its record is written, the selector is set to its line, and the changeover begins (R67). -/
def beginSample (source : SampleSource) (line : Line) (s : State) : State :=
  let cls := s.sampler.classes[line.val]
  { s with sampler := { s.sampler with
      phase := .purging
      inFlight := some
        { source := source, line := line, purge := purgeOf s.settings.bank cls, readings := readingsOf s.settings.bank cls
          start := none, taken := 0, methaneSum := 0, oxygenSum := 0, saturated := false
          due := s.elapsed + Config.changeover } } }

/-- The pointer moves past the last entry: the pass is counted if a sample was selected in it (R60). `n` is the reference
interval. -/
def Sampler.wrap (n : Nat) (k : Sampler) : Sampler :=
  let count := if k.passSampled then min (k.passCount + 1) 15 else k.passCount
  { k with
    pointer := 0
    passSampled := false
    passCount := count
    referenceDue := k.referenceDue || (k.passSampled && n ≠ 0 && n ≤ count) }

/-- The pointer moves on by one entry (R60). -/
def Sampler.advance (n : Nat) (k : Sampler) : Sampler :=
  if k.pointer + 1 < k.sweepList.length then { k with pointer := k.pointer + 1 } else k.wrap n

/-- The sweep step of R65: at most `fuel` entries are examined from the pointer on. An entry that gives a sample sets the
pass-sampled flag before the pointer moves on past it (log 15). A pointer past the end, as only a misread sweep word can leave
it, finds nothing and stays (log 6). -/
def sweepSearch (ok : StationIx → Bool) (n : Nat) : Nat → Sampler → Option StationIx × Sampler
  | 0, k => (none, k)
  | fuel + 1, k =>
    match k.sweepList[k.pointer]? with
    | none => (none, k)
    | some i =>
      if ok i then (some i, Sampler.advance n { k with passSampled := true })
      else sweepSearch ok n fuel (k.advance n)

/-- The sweep step and, where it finds nothing but a reference has become due, the reference (R65). -/
def selectSweep (s : State) : State :=
  let found := sweepSearch (sampleable s) s.settings.bank.referenceInterval s.sampler.sweepList.length s.sampler
  let t := { s with sampler := found.2 }
  match found.1 with
  | some i => beginSample (.sweep i) (lineInUse s i) t
  | none =>
    if found.2.referenceDue && !s.sampler.marks[0] then beginSample .reference 0 t else t

/-- Selection (R65): demand, then reference, then sweep. It acts only while the sampler is IDLE and holds no parked result
(R55, R78); where all three steps find nothing the sampler stays IDLE (R66). -/
def select (s : State) : State :=
  if s.sampler.phase = .idle && s.sampler.parked.isNone then
    match s.sampler.demand.dropWhile (fun i => !sampleable s i) with
    | i :: rest => beginSample (.demand i) (lineInUse s i) { s with sampler := { s.sampler with demand := rest } }
    | [] =>
      let t := { s with sampler := { s.sampler with demand := [] } }
      if s.sampler.referenceDue && !s.sampler.marks[0] then beginSample .reference 0 t else selectSweep t
  else s

/-! ### The words a selection reads (R187, log 7)

They are found from what the selection makes of the sampler: `s` is the state before it and `t` the state behind it. -/

/-- The source of the sample in flight. -/
def sourceInFlight (s : State) : Option SampleSource := s.sampler.inFlight.map Sample.source

/-- The stations of the demand entries that are examined: those in front of the one selected, and its own (R65, step 1). -/
def demandExamined (s t : State) : List StationIx :=
  match sourceInFlight t with
  | some (.demand i) => s.sampler.demand.takeWhile (· ≠ i) ++ [i]
  | _ => s.sampler.demand

/-- How many sweep entries are examined: none for a sample that an earlier step finds, those up to the one selected, or all
(R65, step 3). -/
def sweepCount (s t : State) : Nat :=
  let n := s.sampler.sweepList.length
  match sourceInFlight t with
  | some (.demand _) => 0
  | some .reference => if s.sampler.referenceDue then 0 else n
  | some (.sweep _) => (t.sampler.pointer + n - s.sampler.pointer - 1) % n + 1
  | none => n

/-- The sweep entries that are examined, from the pointer on, each with its place in the list. -/
def sweepExamined (s t : State) : List (StationIx × Nat) :=
  let entries := s.sampler.sweepList.zipIdx
  (entries.drop s.sampler.pointer ++ entries.take s.sampler.pointer).take (sweepCount s t)

/-- The sweep step has come to the end of the list: past the last entry examined, or at once (R60, R65). -/
def reachesEnd (s t : State) : Bool :=
  s.sampler.sweepList.length ≤ s.sampler.pointer + sweepCount s t &&
    (match sourceInFlight t with
     | some (.demand _) => false
     | some .reference => !s.sampler.referenceDue
     | _ => true)

/-- The word of the 0 that ends the list, where the sweep step comes to it (R59). A list of 32 entries has none. -/
def endWord (s t : State) : List Nat :=
  let n := s.sampler.sweepList.length
  if reachesEnd s t && n < Config.sweepCapacity then [448 + n / 4] else []

/-- The pointer moves past the last entry of a pass that counts, which reads the reference interval (R60). -/
def countsPass (s t : State) : Bool :=
  s.sampler.sweepList.length ≤ s.sampler.pointer + sweepCount s t && sweepCount s t ≠ 0
    && (s.sampler.passSampled || (sourceInFlight t).isSome && t.sampler.pointer = 0)

/-- The class word of the line selected, and the word of its class's purge time and reading count (R57, R67). -/
def lineWords (t : State) : List Nat :=
  match t.sampler.inFlight with
  | some m => 456 :: (match t.sampler.classes[m.line.val] with | .near => [395] | .far => [396])
  | none => []

/-- The words that a selection leading from `s` to `t` reads: the records of the stations it examines, the words of their
sweep entries and of the end of the list, and the settings it uses. -/
def selectionWords (s t : State) : List Nat :=
  (demandExamined s t).flatMap workWords
    ++ (sweepExamined s t).flatMap (fun e => (448 + e.2 / 4) :: workWords e.1) ++ endWord s t
    ++ (if countsPass s t then [397] else []) ++ lineWords t

/-- The words a selection made now reads. -/
def selectionReads (s : State) : List Nat :=
  if s.sampler.phase = .idle && s.sampler.parked.isNone then selectionWords s (select s) else []

/-- A selection with its reads (R65). -/
def selectBy (a : Access) (s : State) : State := a.look (selectionReads s) (select s)

/-- A selection as a piece of work of its own. -/
def selectNow (run : Reader) (s : State) : State := run noWords selectBy s

/-- The sample in flight becomes absent and the selector is closed; nothing is filed (R79). The sampler is free. -/
def discardSample (s : State) : State :=
  { s with sampler := { s.sampler with phase := .idle, inFlight := none } }

/-- Abandons a sample in flight for a station, on whatever line it runs, and selects (R35, R79). -/
def abandonFor (a : Access) (i : StationIx) (s : State) : State :=
  match s.sampler.inFlight with
  | some m => if m.source.station? = some i then selectBy a (discardSample s) else s
  | none => s

/-- Whether a station holds a claim on a spare line. -/
def claims (s : State) (i : StationIx) : Bool := s.sampler.claim17 = some i || s.sampler.claim18 = some i

/-- The claim of a station becomes none. -/
def dropClaim (i : StationIx) (s : State) : State :=
  { s with sampler := { s.sampler with
      claim17 := if s.sampler.claim17 = some i then none else s.sampler.claim17
      claim18 := if s.sampler.claim18 = some i then none else s.sampler.claim18 } }

/-- Releases the claim of a station; its line in use returns to its own (R75). -/
def releaseClaim (a : Access) (i : StationIx) (s : State) : State :=
  dropClaim i (a.store i (if claims s i then [.sampleLine] else []) s)

/-- Adds an automatic demand entry: nothing where the station has one or the queue is full, else at the tail; an IDLE
sampler then selects (R55, R62). -/
def addDemand (a : Access) (i : StationIx) (s : State) : State :=
  if i ∈ s.sampler.demand then s
  else if s.sampler.demand.length < Config.demandCapacity then
    selectBy a { s with sampler := { s.sampler with demand := s.sampler.demand ++ [i] } }
  else s

/-- Removes the demand entry of a station from wherever it stands (R64). -/
def removeDemand (i : StationIx) (s : State) : State :=
  { s with sampler := { s.sampler with demand := s.sampler.demand.filter (· ≠ i) } }

/-- What the sampler does when a station's state changes from `old` to `new` (R35). -/
def tellSampler (a : Access) (i : StationIx) (old new : StationState) (s : State) : State :=
  match new with
  | .unused => abandonFor a i (releaseClaim a i (removeDemand i s))
  | .isolated => abandonFor a i (releaseClaim a i (removeDemand i s))
  | .standby => if old.active then abandonFor a i (releaseClaim a i s) else s
  | .faulted _ => if old.active then abandonFor a i (releaseClaim a i s) else s
  | .producing => if old.active then s else selectBy a s
  | .quarantined => if old.active then s else selectBy a s

/-- The sampler leaves STOPPED: PAUSED while ANALYSER_FAULT is true, else free to select (R54). -/
def startSampler (a : Access) (s : State) : State :=
  if s.sampler.phase = .stopped then
    if s.sampler.analyserFault then { s with sampler := { s.sampler with phase := .paused } }
    else selectBy a { s with sampler := { s.sampler with phase := .idle } }
  else s

/-- The bank mode becomes IDLE: a sample in flight is abandoned and the sampler is STOPPED (R54). -/
def stopSampler (s : State) : State :=
  { s with sampler := { s.sampler with phase := .stopped, inFlight := none } }

end Sys2Proof.Machine
end

