-- ==== Sys2Proof/Machine/Table.lean ====
section
/-! DEFINITION. The station table's own part of a change (chapter 1): the clamp, a change of state with its STATE event, the
completion report, and the faults whose valve cannot be driven. -/

namespace Sys2Proof.Machine

/-- The code of a fault cause (R218). -/
def FaultCause.code : FaultCause → Nat
  | .valveStall => 1
  | .valveTimeout => 2
  | .positionLine => 3
  | .flowLine => 4
  | .sampleLine => 5
  | .record => 6

/-- The code of a station state (R218). -/
def StationState.code : StationState → Nat
  | .unused => 0
  | .standby => 1
  | .producing => 2
  | .quarantined => 3
  | .isolated => 4
  | .faulted _ => 5

/-- The code of the fault cause, 0 where it is absent (R218). -/
def StationState.causeCode : StationState → Nat
  | .faulted c => c.code
  | _ => 0

/-- The value of a STATE event (R219). -/
def StationState.eventValue (st : StationState) : Nat := st.code + 16 * st.causeCode

/-- The clamp (R10): the target a station may be given for a requested opening. -/
def clampTarget (cfg : StationConfig) (st : StationState) (requested : Nat) : Nat :=
  match st with
  | .producing => if cfg.pinned then cfg.manualOpening else max cfg.vMin (min requested cfg.vMax)
  | .quarantined => cfg.sniffOpening
  | .unused => 0
  | .standby => 0
  | .isolated => 0
  | .faulted _ => 0

/-- The words the clamp reads for a station in a state (R10): the pinned field with the manual opening or the limits, or the
sniff opening. -/
def clampWords (s : State) (i : StationIx) (st : StationState) : List Nat :=
  match st with
  | .producing => [recordBase i + 3, recordBase i + if (s.cfg i).pinned then 2 else 1]
  | .quarantined => [recordBase i + 3]
  | _ => []

/-- The fields a target change writes (R11). -/
def targetFields : List WorkField := [.target, .fresh, .settleExpiry]

/-- A station enters `new`: the change `f` of its working fields, which are `fields`, is made with it, the STATE event is raised
and the sampler is told (R35). The event and the sampler's part come before what the clamp makes of the new state (log 42). -/
def enterState (a : Access) (i : StationIx) (new : StationState) (fields : List WorkField) (f : StationWork → StationWork)
    (s : State) : State :=
  tellSampler a i (s.work i).state new
    (raise .state (stationNumber i) none (some new.eventValue)
      (putWork a i (.state :: fields) { f (s.work i) with state := new } s))

/-- A station's settle expiry is reached: it is removed, and a sampleable station gets a demand entry (R31). -/
def settleReached (a : Access) (i : StationIx) (s : State) : State :=
  let t := putWork a i [.settleExpiry] { s.work i with settleExpiry := none } s
  if sampleable t i then addDemand a i t else t

/-- The drive reports a completion naming a target (R30). At the present target the settle time, which word 402 holds, starts; a
settle time of 0 is reached at once (R31). At an earlier target nothing is written. -/
def reportCompleted (a : Access) (i : StationIx) (target : Nat) (s : State) : State :=
  let s := a.look (workWords i) s
  if target = (s.work i).target then
    let t := putWork a i [.lastMoveDone, .settleExpiry] { s.work i with
      lastMoveDone := some (bankClock s)
      settleExpiry := expiryAfter s s.settings.bank.settleTime } (a.look [402] s)
    if s.settings.bank.settleTime = 0 then settleReached a i t else t
  else s

/-- The states in which a fault report is taken as a fault (R25). -/
def faultTaken (cause : FaultCause) (st : StationState) (m : MotionStatus) : Bool :=
  match cause with
  | .valveStall | .valveTimeout => st = .standby || st.active
  | .positionLine => (st = .standby || st.active) && (m = .none || m = .queued)
  | .flowLine | .sampleLine => st.active
  | .record => false

/-- A station leaves the drive: its queue entry is removed, and its motion record. -/
def dropMoves (i : StationIx) (s : State) : State :=
  { s with drive := { s.drive with
      queue := s.drive.queue.filter (fun e => e.station ≠ i)
      motions := s.drive.motions.filter (fun m => m.station ≠ i) } }

/-- A withdrawal (R125): the station's queue entry is removed, and a motion in progress ends without completion. -/
def withdraw (a : Access) (i : StationIx) (s : State) : State :=
  dropMoves i (a.store i (if motionStatus s i = .none then [] else [.motionStatus]) s)

/-- The fields a fault writes (R26). -/
def StationWork.faulted (w : StationWork) : StationWork := { w with recoveryRun := 0, restartMark := false }

/-- Their names. -/
def faultFields : List WorkField := [.recoveryRun, .restartMark]

/-- A stall, a timeout or a position line fault is taken (R26, R11): target 0, the fresh flag cleared, and a withdrawal in
place of a move request. A settle expiry goes with a target that changes (log 19). -/
def haltFault (a : Access) (i : StationIx) (cause : FaultCause) (s : State) : State :=
  withdraw a i (enterState a i (.faulted cause)
    (faultFields ++ if (s.work i).target = 0 then [.target, .fresh] else targetFields) (fun w =>
    { w.faulted with
      target := 0
      fresh := false
      settleExpiry := if w.target = 0 then w.settleExpiry else none }) s)

/-- A report whose cause leaves the valve undrivable, taken in the states of R25. -/
def haltReport (a : Access) (i : StationIx) (cause : FaultCause) (s : State) : State :=
  let s := a.look (workWords i) s
  if faultTaken cause (s.work i).state (motionStatus s i) then haltFault a i cause s else s

end Sys2Proof.Machine
end

