-- ==== Sys2Proof/Machine/Drive.lean ====
section
/-! DEFINITION. The valve drive (chapter 6): the motion queue, grants, the course of a motion and its endings, move requests
and retargets, the orders of the bank mode, and the target changes that reach it. -/

namespace Sys2Proof.Machine

/-! ### Motions in progress -/

/-- Replaces the motion record of its station. -/
def setMotion (m : Motion) (s : State) : State :=
  { s with drive := { s.drive with motions := s.drive.motions.map (fun x => if x.station = m.station then m else x) } }

/-- A motion's record is removed, and its slot is freed. -/
def dropMotion (i : StationIx) (s : State) : State :=
  { s with drive := { s.drive with motions := s.drive.motions.filter (fun m => m.station ≠ i) } }

/-- The field a report of the drive writes, where a station's motion status becomes `new` (R30). -/
def statusField (s : State) (i : StationIx) (new : MotionStatus) : List WorkField :=
  if motionStatus s i = new then [] else [.motionStatus]

/-- A motion goes on as `m`; the drive reports a change of phase (R30). -/
def changeMotion (a : Access) (m : Motion) (s : State) : State :=
  setMotion m (a.store m.station (statusField s m.station m.phase.status) s)

/-- A motion ends, which the drive reports (R30): its record is removed and its slot is freed. -/
def endMotion (a : Access) (i : StationIx) (s : State) : State := dropMotion i (a.store i [.motionStatus] s)

/-- The direction from a position toward a target (R130, R132). -/
def toward (position target : Nat) : Direction := if position < target then .opening else .closing

/-- One inch period that begins now (R132, steps 3 and 4): a pulse toward the target where the position is present. -/
def inchPeriodFrom (s : State) (position : Option Nat) (target pulses : Nat) : MotionPhase :=
  .inching (pulses + 1) s.elapsed (s.elapsed + s.settings.bank.inchPeriod * 100)
    (position.map fun p => (toward p target, s.elapsed + s.settings.bank.inchOn * 100))

/-- RUNNING begins now in a direction, with a new stall reference (R137). -/
def runningFrom (s : State) (d : Direction) (position : Option Nat) : MotionPhase := .running d position s.elapsed

/-- A motion completes at a target: it ends, and the completion is reported (R135). -/
def completeMotion (a : Access) (i : StationIx) (target : Nat) (s : State) : State :=
  reportCompleted a i target (endMotion a i s)

/-- A motion enters INCHING, or begins its next period there (R132), with the times that word 400 holds. -/
def inchAt (a : Access) (m : Motion) (position : Option Nat) (pulses : Nat) (s : State) : State :=
  changeMotion a { m with phase := inchPeriodFrom s position m.target pulses } (a.look [400] s)

/-! ### Grants (R127 to R130) -/

/-- The start gap has passed since the last motor start (R127). -/
def startGapPassed (s : State) : Bool :=
  match s.drive.lastMotorStart with
  | none => true
  | some t => t + s.settings.bank.startGap * 500 ≤ s.elapsed

/-- The conditions of R127 but for the queue. -/
def grantOpen (s : State) : Bool :=
  s.bank.mode ≠ .idle && s.drive.motions.length < s.settings.bank.slotCount && startGapPassed s

/-- A motion starts a motor now (R128). -/
def startMotor (m : Motion) (s : State) : State :=
  { s with drive := { s.drive with motions := s.drive.motions ++ [m], lastMotorStart := some s.elapsed } }

/-- The granted head begins according to its position (R130). The drive reports the grant (R30); the inch band is in word 399. -/
def beginMotion (a : Access) (e : QueuedMove) (s : State) : State :=
  let s := a.store e.station [.motionStatus] s
  match (s.work e.station).position with
  | none => haltReport a e.station .valveStall (raise .stall (stationNumber e.station) none none s)
  | some p =>
    if within p e.target Config.deadband then reportCompleted a e.station e.target s
    else
      let s := a.look [399] s
      if within p e.target s.settings.bank.inchBand then
        let s := a.look [400] s
        startMotor ⟨e.station, e.target, s.elapsed, p, inchPeriodFrom s (some p) e.target 0⟩ s
      else startMotor ⟨e.station, e.target, s.elapsed, p, runningFrom s (toward p e.target) (some p)⟩ s

/-- Grants the head while the conditions hold (R127); each grant takes one entry. Outside IDLE the test of an entry reads the
slot count and the start gap, which word 398 holds. -/
def grantLoop (a : Access) : Nat → State → State
  | 0, s => s
  | fuel + 1, s =>
    match s.drive.queue with
    | [] => s
    | e :: rest =>
      let s := a.look (if s.bank.mode = .idle then [] else [398]) s
      if grantOpen s then grantLoop a fuel (beginMotion a e { s with drive := { s.drive with queue := rest } }) else s

/-- The grant test (R127). -/
def grantTest (a : Access) (s : State) : State := grantLoop a s.drive.queue.length s

/-! ### Move requests (R124, R133) -/

/-- A target lies beyond a position in the running direction (R133). -/
def ahead (d : Direction) (position target : Nat) : Bool :=
  match d with
  | .opening => position < target
  | .closing => target < position

/-- A motion in progress takes a new target (R133), which is tested against the inch band in word 399. One whose target is that
already stands as it is, under the trip order too (log 43). -/
def retarget (a : Access) (m : Motion) (target : Nat) (s : State) : State :=
  if m.target = target then s
  else
    let m' := { m with target := target }
    let s := a.look (workWords m.station) s
    match (s.work m.station).position with
    | none => changeMotion a m' s
    | some p =>
      match m.phase with
      | .reversing _ => changeMotion a m' s
      | .running d _ _ =>
        if within p target Config.deadband then completeMotion a m.station target s
        else
          let s := a.look [399] s
          if within p target s.settings.bank.inchBand then inchAt a m' (some p) 0 s
          else if ahead d p target then changeMotion a m' s
          else changeMotion a { m' with phase := .reversing (s.elapsed + Config.reversalPause) } s
      | .inching .. =>
        if within p target Config.deadband then completeMotion a m.station target s
        else
          let s := a.look [399] s
          if within p target s.settings.bank.inchBand then inchAt a m' (some p) 0 s
          else changeMotion a { m' with phase := runningFrom s (toward p target) (some p) } s

/-- A move joins the queue at its tail and is reported queued, which clears the fresh flag and the settle expiry (R30). -/
def queueMove (a : Access) (i : StationIx) (target : Nat) (s : State) : State :=
  let t := { s with drive := { s.drive with queue := s.drive.queue ++ [QueuedMove.mk i target] } }
  putWork a i [.motionStatus, .fresh, .settleExpiry] { t.work i with fresh := false, settleExpiry := none } t

/-- Replaces the target of a station's queue entry in place (R124, case 1). -/
def replaceQueued (i : StationIx) (target : Nat) (s : State) : State :=
  { s with drive := { s.drive with
      queue := s.drive.queue.map (fun e => if e.station = i then { e with target := target } else e) } }

/-- The position of a station is present and within the deadband of an opening. -/
def atOpening (s : State) (i : StationIx) (opening : Nat) : Bool :=
  match (s.work i).position with
  | some p => within p opening Config.deadband
  | none => false

/-- The first case of R124 that applies to a move request. A station at rest is tested by its position. -/
def takeMove (a : Access) (i : StationIx) (target : Nat) (s : State) : State :=
  if queued s i then replaceQueued i target s
  else match motionOf s i with
    | some m => retarget a m target s
    | none =>
      let s := a.look (workWords i) s
      if atOpening s i target then reportCompleted a i target s else queueMove a i target s

/-- A move request (R124), and the grant test that may follow it (R127). -/
def moveRequest (a : Access) (i : StationIx) (target : Nat) (s : State) : State := grantTest a (takeMove a i target s)

/-! ### Target changes (R10, R11) -/

/-- A requested opening passes through the clamp; a target that differs is a target change (R11). -/
def applyTarget (a : Access) (i : StationIx) (requested : Nat) (s : State) : State :=
  let s := a.look (workWords i ++ clampWords s i (s.work i).state) s
  let target := clampTarget (s.cfg i) (s.work i).state requested
  if target = (s.work i).target then s
  else moveRequest a i target
    (putWork a i targetFields { s.work i with target := target, fresh := false, settleExpiry := none } s)

/-- A fault whose valve can still be driven is taken (R26): a move request to 0 is passed, though the target may be 0 already
(R124, log 42). -/
def driveFault (a : Access) (i : StationIx) (cause : FaultCause) (s : State) : State :=
  let t := enterState a i (.faulted cause) faultFields StationWork.faulted s
  if (t.work i).target = 0 then moveRequest a i 0 t else applyTarget a i 0 t

/-- A fault report reaches the table (R25, R26). -/
def faultReport (a : Access) (i : StationIx) (cause : FaultCause) (s : State) : State :=
  let s := a.look (workWords i) s
  if faultTaken cause (s.work i).state (motionStatus s i) then
    match cause with
    | .flowLine | .sampleLine | .record => driveFault a i cause s
    | .valveStall | .valveTimeout | .positionLine => grantTest a (haltFault a i cause s)
  else s

/-! ### Endings (R135 to R138) -/

/-- A motion ends as a stall (R137). -/
def stallMotion (a : Access) (i : StationIx) (s : State) : State :=
  grantTest a (faultReport a i .valveStall (raise .stall (stationNumber i) none (s.work i).position (endMotion a i s)))

/-- A motion ends as a timeout (R138). -/
def timeoutMotion (a : Access) (i : StationIx) (s : State) : State :=
  grantTest a (faultReport a i .valveTimeout (raise .timeout (stationNumber i) none (s.work i).position (endMotion a i s)))

/-- A motion ends as a miss, reported as a completion at its target (R136). -/
def missMotion (a : Access) (m : Motion) (s : State) : State :=
  grantTest a (reportCompleted a m.station m.target
    (raise .miss (stationNumber m.station) none (s.work m.station).position (endMotion a m.station s)))

/-- The position has passed the target in the running direction (R131). -/
def passed (d : Direction) (position target : Nat) : Bool :=
  match d with
  | .opening => target < position
  | .closing => position < target

/-- The stall reference after a new position (R137). -/
def stallReference (ref : Option Nat) (stallAt now : Nat) (position : Option Nat) : Option Nat × Nat :=
  match position, ref with
  | some p, some r => if within p r (Config.deadband - 1) then (some r, stallAt) else (some p, now)
  | some p, none => (some p, stallAt)
  | none, _ => (ref, stallAt)

/-- The stall test at a new position (R137), with the stall time that word 401 holds. -/
def stallTest (a : Access) (m : Motion) (d : Direction) (ref : Option Nat) (stallAt : Nat) (s : State) : State :=
  let s := a.look [401] s
  let r := stallReference ref stallAt s.elapsed (s.work m.station).position
  if r.2 + s.settings.bank.stallTime * 1000 ≤ s.elapsed then stallMotion a m.station s
  else changeMotion a { m with phase := .running d r.1 r.2 } s

/-- The drive sees a new position of a station whose motion is in progress (R131, R132). -/
def seePosition (a : Access) (m0 : Motion) (s : State) : State :=
  let s := a.look (workWords m0.station) s
  match (s.work m0.station).position with
  | none =>
    match m0.phase with
    | .running d ref stallAt => stallTest a m0 d ref stallAt s
    | _ => s
  | some p =>
    let m := { m0 with lastSeen := p }
    match m.phase with
    | .running d ref stallAt =>
      if within p m.target Config.deadband then grantTest a (completeMotion a m.station m.target s)
      else
        let s := a.look [399] s
        if within p m.target s.settings.bank.inchBand || passed d p m.target then inchAt a m (some p) 0 s
        else stallTest a m d ref stallAt s
    | .inching .. =>
      if within p m.target Config.deadband then grantTest a (completeMotion a m.station m.target s) else changeMotion a m s
    | .reversing _ => changeMotion a m s

/-- A new inch period begins (R132). -/
def nextInchPeriod (a : Access) (m : Motion) (pulses : Nat) (s : State) : State :=
  let s := a.look (workWords m.station) s
  if Config.inchPulses ≤ pulses then missMotion a m s
  else if atOpening s m.station m.target then grantTest a (completeMotion a m.station m.target s)
  else inchAt a m (s.work m.station).position pulses s

/-- The reversal pause ends (R134). -/
def endReversal (a : Access) (m : Motion) (s : State) : State :=
  let s := a.look (workWords m.station) s
  match (s.work m.station).position with
  | none => changeMotion a { m with phase := runningFrom s (toward m.lastSeen m.target) none } s
  | some p =>
    if within p m.target Config.deadband then grantTest a (completeMotion a m.station m.target s)
    else
      let s := a.look [399] s
      if within p m.target s.settings.bank.inchBand then inchAt a m (some p) 0 s
      else changeMotion a { m with phase := runningFrom s (toward p m.target) (some p) } s

/-- The instant a motion times out (R138). -/
def timeoutAt (s : State) (m : Motion) : Nat := m.grantAt + s.settings.bank.moveTimeout * 1000

/-- Motions that have already run for the move timeout in force, which word 401 holds, end, as when it is lowered (R138), in the
order in which they were granted (log 43). -/
def timeoutDue (a : Access) (s : State) : State :=
  let s := a.look (if s.drive.motions.isEmpty then [] else [401]) s
  ((s.drive.motions.filter (fun m => timeoutAt s m ≤ s.elapsed)).map Motion.station).foldl
    (fun t i => timeoutMotion a i t) s

/-! ### Orders (R141 to R143) -/

/-- The stations the drive holds an entry or a motion for. -/
def movingStations (s : State) : List StationIx := allStations.filter (fun i => motionStatus s i ≠ .none)

/-- The drive reports the end of some moves, which leaves their stations with no motion (R30, R141). -/
def reportEnds (a : Access) (stations : List StationIx) (s : State) : State :=
  stations.foldl (fun t i => a.store i [.motionStatus] t) s

/-- The STOP order (R141): motors stop, motions end and the queue is flushed, and each is reported. -/
def stopOrder (a : Access) (s : State) : State :=
  let s := reportEnds a (movingStations s) s
  { s with drive := { s.drive with queue := [], motions := [] } }

/-- Whether the RUN order adds an entry for a station (R142).
DEDUCED (log 43): none for a station with a motion in progress. IDLE has no motion, so there is one only where damage found
behind the change of mode has passed a move request that was granted, and R121 allows a station one motion. -/
def runOrderWants (s : State) (i : StationIx) : Bool :=
  motionStatus s i = .none && (s.work i).position.isSome && !atOpening s i (s.work i).target && !(s.work i).state.valveFault

/-- The RUN order for one station (R142). -/
def runStation (a : Access) (i : StationIx) (s : State) : State :=
  let s := a.look (workWords i) s
  if runOrderWants s i then queueMove a i (s.work i).target s else s

/-- The RUN order (R142). -/
def runOrder (a : Access) (s : State) : State := grantTest a (forStations (runStation a) s)

/-- The position the close moves of a trip are ordered by. -/
def positionOr0 (s : State) (i : StationIx) : Nat := (s.work i).position.getD 0

/-- Whether a trip order examines a station at step 3 (R143). -/
def tripOrderExamines (s : State) (i : StationIx) : Bool :=
  (motionOf s i).isNone && !(s.work i).state.valveFault && (s.work i).position.isSome

/-- The stations given a close move, in descending position and, between equal positions, ascending number (R143). -/
def closeOrder (s : State) : List StationIx :=
  (allStations.filter (fun i => tripOrderExamines s i && Config.deadband < positionOr0 s i)).insertionSort
    (fun i j => positionOr0 s j < positionOr0 s i ∨ (positionOr0 s i = positionOr0 s j ∧ i ≤ j))

/-- The trip order (R143). `changed` are the stations whose target the stand-down changed. -/
def tripOrder (a : Access) (changed : List StationIx) (s : State) : State :=
  let flushed := s.drive.queue.map QueuedMove.station
  let s0 := reportEnds a flushed s
  let s1 := { s0 with drive := { s0.drive with queue := [] } }
  let s2 := a.look allWorkWords (s1.drive.motions.foldl (fun t m => retarget a m 0 t) s1)
  let closed := (closeOrder s2).foldl (fun t i => queueMove a i 0 t) s2
  let atRest := allStations.filter fun i =>
    tripOrderExamines s2 i && positionOr0 s2 i ≤ Config.deadband && (i ∈ flushed || i ∈ changed)
  grantTest a (atRest.foldl (fun t i => reportCompleted a i 0 t) closed)

end Sys2Proof.Machine
end

