-- ==== Sys2Proof/Machine/Classifier.lean ====
section
/-! DEFINITION. Filing a sample result (R32) and its classification, quarantine, exhaustion and recovery (chapter 4). -/

namespace Sys2Proof.Machine

/-- The level of a purity mark (R83). -/
def markLevel (b : BankSettings) (k : Fin 4) : Nat :=
  match k with
  | 0 => b.mark0
  | 1 => b.mark1
  | 2 => b.mark2
  | 3 => b.mark3

/-- The lower and upper limits of a station (R84). -/
def lowerLimit (b : BankSettings) (cfg : StationConfig) : Nat := min (markLevel b cfg.markA) (markLevel b cfg.markB)
def upperLimit (b : BankSettings) (cfg : StationConfig) : Nat := max (markLevel b cfg.markA) (markLevel b cfg.markB)

/-- The area of a methane value between two limits (R85). -/
def areaOf (lower upper c : Nat) : Area := if c < lower then .poor else if c < upper then .fair else .good

/-- The number of an area: 1, 2 or 3 (R87, R218). -/
def Area.number : Area → Nat
  | .poor => 1
  | .fair => 2
  | .good => 3

/-- Whether an event code raises a QUALITY event for an area (R87). -/
def raisesQuality (code : Nat) (a : Area) : Bool :=
  match code with
  | 0 => false
  | 1 => a ≠ .poor
  | 2 => a ≠ .fair
  | 3 => a ≠ .good
  | 4 => true
  | 5 => a = .poor
  | 6 => a = .fair
  | 7 => a = .good
  | _ => false

/-- The fields a transition writes beside the state (R89, R90). -/
def countFields : List WorkField := [.quarantineCount, .recoveryRun]

/-- The station becomes QUARANTINED at its sniff opening (R89). -/
def quarantine (a : Access) (i : StationIx) (count : Nat) (s : State) : State :=
  applyTarget a i (s.cfg i).sniffOpening
    (enterState a i .quarantined countFields (fun w => { w with quarantineCount := count, recoveryRun := 0 }) s)

/-- The count an exhausted station stores (R90). -/
def exhaustedCount (limit : Nat) : Nat := min (limit + 1) 15

/-- The station is retired to STANDBY (R90). -/
def exhaust (a : Access) (i : StationIx) (s : State) : State :=
  let count := exhaustedCount (s.cfg i).quarantineLimit
  applyTarget a i 0
    (enterState a i .standby countFields (fun w => { w with quarantineCount := count, recoveryRun := 0 })
      (raise .exhausted (stationNumber i) none (some count) s))

/-- The station returns to PRODUCING at its start opening, which record word 2 holds, or its manual opening (R92). -/
def recover (a : Access) (i : StationIx) (s : State) : State :=
  applyTarget a i (s.cfg i).startOpening
    (enterState a i .producing [.recoveryRun] (fun w => { w with recoveryRun := 0 }) (a.look [recordBase i + 2] s))

/-- The transition rule of a PRODUCING station (R88), with the quarantine limit that record word 5 holds. -/
def classifyProducing (acc : Access) (i : StationIx) (a : Area) (s : State) : State :=
  if a = .poor then
    let s := acc.look [recordBase i + 5] s
    let count := (s.work i).quarantineCount + 1
    if count ≤ (s.cfg i).quarantineLimit then quarantine acc i count s else exhaust acc i s
  else s

/-- The transition rule of a QUARANTINED station (R91), with the recovery count that record word 5 holds. -/
def classifyQuarantined (acc : Access) (i : StationIx) (a : Area) (s : State) : State :=
  if a = .good then
    let s := acc.look [recordBase i + 5] s
    let run := (s.work i).recoveryRun + 1
    if (s.cfg i).recoveryCount ≤ run then recover acc i s
    else putWork acc i [.recoveryRun] { s.work i with recoveryRun := run } s
  else putWork acc i [.recoveryRun] { s.work i with recoveryRun := 0 } s

/-- The transition rule of the station's state, for a result of the area it has been given (R86, step 3). -/
def applyTransition (acc : Access) (i : StationIx) (a : Area) (s : State) : State :=
  let s := acc.look (workWords i) s
  match (s.work i).state with
  | .producing => classifyProducing acc i a s
  | .quarantined => classifyQuarantined acc i a s
  | _ => s

/-- The area of a result under a station's limits (R84, R85). -/
def areaFor (s : State) (r : StationResult) : Area :=
  areaOf (lowerLimit s.settings.bank (s.cfg r.station)) (upperLimit s.settings.bank (s.cfg r.station)) r.c

/-- The fields of a quality result (R6). -/
def qualityFields : List WorkField :=
  [.quality, .qualityC, .qualityO, .qualityReadings, .qualityOverRange, .qualityStart, .qualityFiled, .qualityArea, .qualityLine]

/-- A result replaces its station's quality result, with its area, and may set the fresh flag (R32; R86, step 1); a QUALITY event
is raised where the event code calls for one (R86, step 2). -/
def storeResult (acc : Access) (r : StationResult) (s : State) : State :=
  let i := r.station
  let a := areaFor s r
  let counts := (s.work i).lastMoveDone.getD 0 ≤ r.start && motionStatus s i = .none
  let t := putWork acc i (qualityFields ++ if counts then [.fresh] else []) { s.work i with
    quality := some ⟨r.c, r.o, r.readings, r.overRange, r.start, bankClock s, a, r.line⟩
    fresh := counts || (s.work i).fresh } s
  if raisesQuality (s.cfg i).eventCode a then raise .quality (stationNumber i) none (some (r.c + 1024 * a.number)) t else t

/-- The word that holds the level of a purity mark (R186). -/
def markWordOf (k : Fin 4) : Nat := if k.val < 2 then 392 else 393

/-- The words that filing a result reads before it stores anything, in the order it needs them (R32, R84): the station's working
words, and for a sampleable station its mark fields and event code and the two marks they name. -/
def filingReads (r : StationResult) (s : State) : List Nat :=
  let i := r.station
  workWords i ++
    if sampleable s i then [recordBase i + 4, markWordOf (s.cfg i).markA, markWordOf (s.cfg i).markB] else []

/-- A result that reaches a sampleable station is stored and reported, and then its station's transition rule is applied to the
area it was given; any other is dropped (R32, R86). The transition is a piece of work of its own: what its reads find comes
behind the first two steps, which stand (R189). -/
def fileResult (run : Reader) (r : StationResult) (s : State) : State :=
  let t := run (filingReads r) nothing s
  if sampleable t r.station then
    run noWords (fun acc u => applyTransition acc r.station (areaFor t r) u) (run noWords (fun acc u => storeResult acc r u) t)
  else t

end Sys2Proof.Machine
end

