-- ==== Sys2Proof/Machine/Measurement.lean ====
section
/-! DEFINITION. The measurement unit (chapter 2): conversion and scaling, line events, positions, flow windows and the flow
computation. -/

namespace Sys2Proof.Machine

/-- The status a code gives (R37). -/
def statusOfCode (code : Nat) : InputStatus :=
  if code ≤ 736 then .fault else if code ≤ 818 then .zero else if code ≤ 4094 then .good else .saturated

/-- The span of an input (R37). -/
def inputSpan (k : Nat) : Nat :=
  if k < 16 then 4000 else if k < 32 then 1000 else if k = 32 then 80 else if k = 33 then 1000 else 250

/-- The value of an input table entry under a span; absent where the status is NOT_CONVERTED or FAULT (R36, R37). -/
def inputValue (span : Nat) (e : InputEntry) : Option Nat :=
  match e.status with
  | .notConverted => none
  | .fault => none
  | .zero => some 0
  | .good => some ((e.code - 819) * span / 3276)
  | .saturated => some span

/-- The differential pressure input of a station (section 6.3). -/
def dpInput (s : State) (i : StationIx) : InputEntry := s.measure.inputs[i.val]

/-- The position input of a station (section 6.3). -/
def positionInput (s : State) (i : StationIx) : InputEntry := s.measure.inputs[i.val + 16]

/-- An entry rewritten from its new code (R36). -/
def convertCode (now : Nat) (c : Code) : InputEntry :=
  { code := c.toNat, status := statusOfCode c.toNat, time := now }

/-! ### Line events (R39) -/

/-- The event of one loop whose status goes from `old` to `new` (R39). -/
def lineEvent (kind : EventKind) (i : StationIx) (old : InputStatus) (new : InputEntry) (s : State) : State :=
  if (s.work i).state = .unused then s
  else if new.status = .fault then
    if old = .fault then s else raise kind (stationNumber i) (some .set) (some new.code) s
  else if old = .fault then raise kind (stationNumber i) (some .clear) (some new.code) s
  else s

/-- The events of a conversion, in ascending input number (R39, log 16). `before` is the input table before it. -/
def lineEvents (before : Vector InputEntry 35) (s : State) : State :=
  forStations (fun i t => lineEvent .positionLine i before[i.val + 16].status (positionInput t i) t)
    (forStations (fun i t => lineEvent .flowLine i before[i.val].status (dpInput t i) t) s)

/-! ### Positions (R34, R41) -/

/-- Every station's position is stored in its record (R34, R41). -/
def storePositions (a : Access) (s : State) : State :=
  forStations (fun i t =>
    putWork a i [.position] { t.work i with position := inputValue 1000 (positionInput t i) } t) s

/-- An absent position is a fault report (R34). -/
def reportPositions (a : Access) (s : State) : State :=
  forStations (fun i t => if (t.work i).position.isNone then faultReport a i .positionLine t else t) s

/-- The positions of a conversion reach the table, behind its line events (R39 to R41). `before` is the input table before it. -/
def takePositions (before : Vector InputEntry 35) (a : Access) (s : State) : State :=
  reportPositions a (storePositions a (lineEvents before s))

/-- The motion in progress for a station, where there is one, sees the station's new position. -/
def seeMotion (i : StationIx) (a : Access) (s : State) : State :=
  match motionOf s i with
  | some m => seePosition a m s
  | none => s

/-- Every motion in progress sees its station's new position (R131, R132, R137), each as a piece of work of its own, in the order
in which they were granted (log 16). -/
def movePositions (run : Reader) (s : State) : State :=
  (s.drive.motions.map Motion.station).foldl (fun t i => run noWords (seeMotion i) t) s

/-! ### Flow (R46 to R48) -/

/-- The root built bit by bit from bit `k` − 1 down: the largest integer whose square does not exceed `n` (section 6.4), for
`n` below 4 to the power `k`. -/
def rootFrom (n : Nat) : Nat → Nat → Nat
  | 0, r => r
  | k + 1, r => if (r + 2 ^ k) * (r + 2 ^ k) ≤ n then rootFrom n k (r + 2 ^ k) else rootFrom n k r

/-- The integer square root of section 6.4, for operands below 2 to the power 64. -/
def squareRoot (n : Nat) : Nat := rootFrom n 32 0

/-- Relative density (R47, step 2). -/
def relativeDensity (c : Nat) : Nat := 1000 - 446 * c / 1000

/-- The flow before the clamp to 9999 (R47, R48). -/
def rawFlow (k c dp : Nat) : Nat :=
  if dp < 20 then 0 else k * squareRoot (dp * 1000000 / relativeDensity c) / 10000

/-- The record of a window that ends valid (R43, R48). -/
def windowRecord (k c : Nat) (w : FlowWindow) (now : Nat) : WindowResult :=
  let dp := w.sum / w.count
  .valid (min (rawFlow k c dp) 9999) dp w.saturated (9999 < rawFlow k c dp) now

/-- The fields of a flow record (R4). -/
def flowFields : List WorkField := [.flowQ, .flowDp, .flowSaturated, .flowClamped, .flowTime, .flowValid]

/-- The table stores a flow record (R33); an invalid one is a FLOW_LINE fault report. -/
def storeFlow (a : Access) (i : StationIx) (r : WindowResult) (s : State) : State :=
  match r with
  | .valid q dp sat clamped time => putWork a i flowFields { s.work i with flow := ⟨q, dp, sat, clamped, time, true⟩ } s
  | .invalid time =>
    faultReport a i .flowLine
      (putWork a i [.flowTime, .flowValid]
        { s.work i with flow := { (s.work i).flow with valid := false, time := time } } s)

/-- A record that ends goes to the table, or to its station's parking slot during a hold (R45). -/
def handFlow (a : Access) (i : StationIx) (r : WindowResult) (s : State) : State :=
  if s.link.hold then { s with measure := { s.measure with parked := s.measure.parked.set i.val (some r) } }
  else storeFlow a i r s

/-- Replaces a station's flow accumulator. -/
def setWindow (i : StationIx) (w : Option FlowWindow) (s : State) : State :=
  { s with measure := { s.measure with windows := s.measure.windows.set i.val w } }

/-- The methane value the flow computation uses (R46). -/
def methaneFor (s : State) (i : StationIx) : Nat :=
  match (s.work i).quality with
  | some q => q.c
  | none => 0

/-- The window of a station with one more value in it (R43). -/
def extendWindow (length value : Nat) (saturated : Bool) : Option FlowWindow → FlowWindow
  | none => { sum := value, count := 1, length := length, saturated := saturated }
  | some w => { w with sum := w.sum + value, count := w.count + 1, saturated := w.saturated || saturated }

/-- One conversion of a station's flow window (R43, R44). A window that begins reads its length in word 394, and one that ends
valid the K of its station and the methane value of the stored result (R46). -/
def flowStep (i : StationIx) (a : Access) (s : State) : State :=
  match inputValue 4000 (dpInput s i) with
  | none =>
    if (dpInput s i).status = .fault then handFlow a i (.invalid (bankClock s)) (setWindow i none s) else s
  | some value =>
    let s := a.look (if s.measure.windows[i.val].isNone then [394] else []) s
    let w := extendWindow s.settings.bank.windowLength value ((dpInput s i).status = .saturated)
      s.measure.windows[i.val]
    if w.length ≤ w.count then
      let s := a.look (recordBase i :: workWords i) s
      handFlow a i (windowRecord (s.cfg i).k (methaneFor s i) w (bankClock s)) (setWindow i none s)
    else setWindow i (some w) s

/-- The flow windows of a conversion, each station's as a piece of work of its own (R40). -/
def stepFlows (run : Reader) (s : State) : State := forStations (fun i t => run noWords (flowStep i) t) s

/-- The input table of a conversion (R36). -/
def readInputs (codes : Vector Code 35) (s : State) : State :=
  { s with measure := { s.measure with inputs := codes.map (convertCode (bankClock s)) } }

/-- One conversion: the input table is rewritten and the results are handed on in the order of R40, each step with reads of its
own: the positions, which the drive sees, the flow windows, and the suction limit in word 394 for SUCTION_LOW, which reads entry
32 (R50). The analyser values are the entries 33 and 34 themselves (R51). -/
def convert (run : Reader) (codes : Vector Code 35) (s : State) : State :=
  run (fun _ => [394]) nothing
    (stepFlows run (movePositions run (run noWords (takePositions s.measure.inputs) (readInputs codes s))))

/-! ### The end of a hold (R45) -/

/-- A station's parked record is handed to the table and its slot becomes empty (R45). -/
def handParkedFlow (i : StationIx) (a : Access) (s : State) : State :=
  match s.measure.parked[i.val] with
  | some r => storeFlow a i r { s with measure := { s.measure with parked := s.measure.parked.set i.val none } }
  | none => s

/-- Every parked record is handed to the table in ascending station order (R45), each as a piece of work of its own. -/
def handParkedFlows (run : Reader) (s : State) : State := forStations (fun i t => run noWords (handParkedFlow i) t) s

end Sys2Proof.Machine
end

