-- ==== Sys2Proof/Machine/Sampling.lean ====
section
/-! DEFINITION. The course of one sample (chapter 3, sections 3.6 to 3.10): readings, completion, line faults, substitution,
the reference check and the parked result. -/

namespace Sys2Proof.Machine

/-- The value an analyser input gives a reading, absent where its status is FAULT (R51, R69, log 29). `k` is 33 or 34. -/
def analyserValue (k : Fin 35) (s : State) : Option Nat :=
  match s.measure.inputs[k.val].status with
  | .notConverted => some (min (Config.unconvertedReading k.val) (inputSpan k.val))
  | _ => inputValue (inputSpan k.val) s.measure.inputs[k.val]

def analyserSaturated (k : Fin 35) (s : State) : Bool := s.measure.inputs[k.val].status = .saturated

/-- The ANALYSER_FAULT condition becomes true and the sampler is PAUSED (R71, R76). -/
def pauseSampler (s : State) : State :=
  { s with sampler := { s.sampler with phase := .paused, inFlight := none, analyserFault := true } }

/-- The fault count has reached 3 and the sampler is PAUSED (R71). -/
def invalidPause (s : State) : State :=
  raise .analyserFault 0 (some .set) (some s.sampler.faultCount) (pauseSampler s)

/-- An invalid reading, its sample abandoned (R71): the fault count goes up, and the sampler selects; at 3 it is PAUSED. -/
def countInvalid (run : Reader) (s : State) : State :=
  let t := { s with sampler := { s.sampler with faultCount := min (s.sampler.faultCount + 1) 3 } }
  if t.sampler.faultCount < 3 then selectNow run t else run noWords (fun _ => invalidPause) t

/-- A reference sample has failed with the methane value `c`: the sampler is PAUSED (R76). -/
def referenceFails (c : Nat) (s : State) : State :=
  let t := pauseSampler (raise .referenceFail 0 none (some c) s)
  if s.sampler.analyserFault then t else raise .analyserFault 0 (some .set) (some t.sampler.faultCount) t

/-- A completed reference sample is checked against clean air (R76). -/
def referenceCheck (run : Reader) (c o : Nat) (s : State) : State :=
  let pass := c ≤ 20 && 195 ≤ o
  let t := { s with sampler := { s.sampler with
    lastReference := some ⟨c, o, bankClock s, pass⟩, passCount := 0, referenceDue := false } }
  if pass then selectNow run t else run noWords (fun _ => referenceFails c) t

/-- The average of `n` readings, a half rounded up (R70). -/
def average (sum n : Nat) : Nat := (sum + n / 2) / n

/-- The result of a completed station sample (R70). -/
def resultOf (m : Sample) (i : StationIx) : StationResult :=
  { station := i, c := average m.methaneSum m.readings, o := average m.oxygenSum m.readings, readings := m.readings
    overRange := m.saturated, start := m.start.getD 0, line := m.line }

/-- A station result is handed to the table, or parked during a hold (R77, R78). The sampler does not wait for the table, so
it has selected again when the table files the result (R90, log 14). -/
def deliver (run : Reader) (r : StationResult) (s : State) : State :=
  if s.link.hold then { s with sampler := { s.sampler with parked := some r } }
  else fileResult run r (selectNow run s)

/-- A sample completes (R70). -/
def completeSample (run : Reader) (m : Sample) (s : State) : State :=
  let t := discardSample { s with sampler := { s.sampler with faultCount := 0 } }
  match m.source with
  | .reference => referenceCheck run (average m.methaneSum m.readings) (average m.oxygenSum m.readings) t
  | .demand i => deliver run (resultOf m i) t
  | .sweep i => deliver run (resultOf m i) t

/-- One reading of the sample in flight (R69). `fault` is the analyser fault contact. -/
def takeReading (run : Reader) (m : Sample) (fault : Bool) (s : State) : State :=
  match fault, analyserValue 33 s, analyserValue 34 s with
  | false, some c, some o =>
    let m' := { m with
      taken := m.taken + 1
      methaneSum := m.methaneSum + c
      oxygenSum := m.oxygenSum + o
      saturated := m.saturated || analyserSaturated 33 s || analyserSaturated 34 s
      due := s.elapsed + Config.readingGap }
    if m'.readings ≤ m'.taken then completeSample run m' s
    else { s with sampler := { s.sampler with phase := .reading, inFlight := some m' } }
  | _, _, _ => countInvalid run (discardSample s)

/-- Whether a spare line is free for substitution: unmarked and unclaimed (R74). -/
def spareFree (s : State) : SpareLine → Bool
  | .line17 => !s.sampler.marks[17] && s.sampler.claim17.isNone
  | .line18 => !s.sampler.marks[18] && s.sampler.claim18.isNone

/-- The station claims a spare line (R74). -/
def claimSpare (i : StationIx) (l : SpareLine) (s : State) : State :=
  match l with
  | .line17 => { s with sampler := { s.sampler with claim17 := some i } }
  | .line18 => { s with sampler := { s.sampler with claim18 := some i } }

/-- The spare line a station whose line failed may claim (R74). -/
def substitute (s : State) (i : StationIx) (failed : Line) : Option SpareLine :=
  match (s.cfg i).standbyLine with
  | some l => if (s.work i).state.active && failed = ownLine i && spareFree s l then some l else none
  | none => none

/-- The words by which a failed line is substituted (R74): the station's state, and its standby line where it is sampled and
the line that failed is its own. -/
def substituteReads (i : StationIx) (failed : Line) (s : State) : List Nat :=
  workWords i ++ if (s.work i).state.active && failed = ownLine i then [recordBase i + 3] else []

/-- A station's sample found no flow: it claims its spare line and gets a demand entry, or is faulted (R74). -/
def lineFailed (i : StationIx) (failed : Line) (a : Access) (s : State) : State :=
  let s := a.look (substituteReads i failed s) s
  match substitute s i failed with
  | some l =>
    addDemand a i (raise .substituted (stationNumber i) none (some l.line.val) (claimSpare i l (a.store i [.sampleLine] s)))
  | none => if (s.work i).state.active then faultReport a i .sampleLine s else s

/-- The station number a LINE_FAULT event carries (R73). -/
def sourceNumber (src : SampleSource) : Nat :=
  match src.station? with
  | some i => stationNumber i
  | none => 0

/-- The line is marked and LINE_FAULT is raised (R73, steps 1 and 2). -/
def failLine (m : Sample) (s : State) : State :=
  raise .lineFault (sourceNumber m.source) none (some m.line.val)
    { s with sampler := { s.sampler with marks := s.sampler.marks.set m.line.val true } }

/-- No sample flow at the first reading (R73). The sampler acts for the station by its state and its standby line (R74). -/
def noSampleFlow (run : Reader) (m : Sample) (s : State) : State :=
  let t := discardSample (run noWords (fun _ => failLine m) s)
  selectNow run (match m.source.station? with
    | some i => run noWords (lineFailed i m.line) t
    | none => t)

/-- The first reading, at the end of the purge (R68). -/
def firstReading (run : Reader) (m : Sample) (flow fault : Bool) (s : State) : State :=
  let t := { s with sampler := { s.sampler with phase := .reading } }
  if flow then takeReading run m fault t else noSampleFlow run m t

/-- The parked result, where there is one, is handed to the table, its slot becomes empty, and an IDLE sampler selects
(R78). -/
def handParkedResult (run : Reader) (s : State) : State :=
  match s.sampler.parked with
  | some r =>
    selectNow run (fileResult run r { s with sampler := { s.sampler with parked := none } })
  | none => s

/-- The hold is inactive. -/
def leaveHold (s : State) : State := { s with link := { s.link with hold := false } }

/-- A hold ends: the parked flow records in ascending station order, then the parked result (R45, R78, R180).
DESIGN CHOICE (log 42): R78 lets the two reach the table in either order, and the model hands on every flow record first. An
invalid parked record may fault its station (R33), and the station's parked result is then dropped (R32); the other order
would file it. -/
def endHold (run : Reader) (s : State) : State :=
  if s.link.hold then handParkedResult run (handParkedFlows run (leaveHold s)) else s

end Sys2Proof.Machine
end

