-- ==== Sys2Proof/Machine/Balance.lean ====
section
/-! DEFINITION. The balance round (chapter 5): participants and totals, the conditions, the decision, the deficit and the
surplus procedure, and the handing on of round changes. -/

namespace Sys2Proof.Machine

/-! ### Settings in use (R96, R98) -/

/-- The purity target T. -/
def purityTarget (b : BankSettings) : Nat := b.purityFloor + b.purityHysteresis / 2

/-- The oxygen target T_o. -/
def oxygenTarget (b : BankSettings) : Nat := b.oxygenCeiling - b.oxygenHysteresis / 2

/-- The trip floor in use (R98). -/
def tripFloorInUse (b : BankSettings) : Nat := min b.tripFloor b.purityFloor

/-- The trip ceiling in use (R98). -/
def tripCeilingInUse (b : BankSettings) : Nat := max b.tripCeiling b.oxygenCeiling

/-! ### Participants and totals (R102, R103) -/

/-- The quality result a participant is known by: present and not older than the stale limit, with a valid flow record. -/
def knownResult (s : State) (i : StationIx) : Option QualityResult :=
  match (s.work i).quality with
  | some r =>
    if bankClock s - r.filed ≤ s.settings.bank.staleLimit && (s.work i).flow.valid then some r else none
  | none => none

/-- What a round forms over the participants (R99, R103): Q, U, M and X, and the two counts. -/
structure Totals where
  participants : Nat
  known : Nat
  flow : Nat
  unknownFlow : Nat
  methane : Nat
  oxygen : Nat
  deriving DecidableEq, Repr

def Totals.zero : Totals := { participants := 0, known := 0, flow := 0, unknownFlow := 0, methane := 0, oxygen := 0 }

/-- Adds one station to the totals (R102, R103). -/
def Totals.add (s : State) (t : Totals) (i : StationIx) : Totals :=
  if (s.work i).state.active then
    let q := (s.work i).flow.q
    match knownResult s i with
    | some r => { t with
        participants := t.participants + 1, known := t.known + 1, flow := t.flow + q
        methane := t.methane + q * r.c, oxygen := t.oxygen + q * r.o }
    | none => { t with participants := t.participants + 1, unknownFlow := t.unknownFlow + q }
  else t

def totals (s : State) : Totals := allStations.foldl (Totals.add s) Totals.zero

/-! ### Candidates (R109, R110, R115) -/

/-- What the procedures read of an adjustable station; `v` is its present target. -/
structure Candidate where
  station : StationIx
  q : Nat
  c : Nat
  o : Nat
  v : Nat
  vMin : Nat
  vMax : Nat
  area : Area
  deriving DecidableEq, Repr

/-- The candidate an adjustable station gives (R109). -/
def adjustable (s : State) (i : StationIx) : Option Candidate :=
  match knownResult s i with
  | some r =>
    if (s.work i).state = .producing && !(s.cfg i).pinned && (s.work i).fresh && motionStatus s i = .none
        && (s.cfg i).vMin < (s.work i).target then
      some ⟨i, (s.work i).flow.q, r.c, r.o, (s.work i).target, (s.cfg i).vMin, (s.cfg i).vMax, r.area⟩
    else none
  | none => none

def candidates (s : State) : List Candidate := allStations.filterMap (adjustable s)

/-- Ascending c, then descending o, then ascending station number (R110). -/
def poorerFirst (a b : Candidate) : Bool :=
  a.c < b.c || (a.c = b.c && (b.o < a.o || (a.o = b.o && a.station ≤ b.station)))

/-- Descending c, then ascending o, then ascending station number (R115). -/
def richerFirst (a b : Candidate) : Bool :=
  b.c < a.c || (a.c = b.c && (a.o < b.o || (a.o = b.o && a.station ≤ b.station)))

def deficitOrder (l : List Candidate) : List Candidate := l.insertionSort (fun a b => poorerFirst a b = true)

def surplusOrder (l : List Candidate) : List Candidate :=
  (l.filter (fun a => a.v < a.vMax && a.area = .good)).insertionSort (fun a b => richerFirst a b = true)

/-! ### The deficit procedure (R110 to R114) -/

/-- A quotient rounded up. -/
def ceilDiv (a b : Nat) : Nat := (a + b - 1) / b

/-- What a deficit round works toward (R108, R110). -/
structure DeficitAim where
  purity : Nat
  oxygen : Nat
  purityBreached : Bool
  oxygenBreached : Bool
  maxStep : Nat
  deriving DecidableEq, Repr

/-- The running totals Q', M' and X' and the adjustments made (R110). -/
structure Running where
  flow : Nat
  methane : Nat
  oxygen : Nat
  adjustments : List Adjustment
  deriving DecidableEq, Repr

/-- Purity keeps the round going (R110). -/
def purityShort (a : DeficitAim) (r : Running) : Bool := a.purityBreached && r.methane < a.purity * r.flow

/-- Oxygen keeps the round going (R110). -/
def oxygenOver (a : DeficitAim) (r : Running) : Bool := a.oxygenBreached && a.oxygen * r.flow < r.oxygen

/-- The branch is still deficient (R110). -/
def deficient (a : DeficitAim) (r : Running) : Bool := purityShort a r || oxygenOver a r

/-- The purity fraction f_p (R111). -/
def purityFraction (a : DeficitAim) (r : Running) (j : Candidate) : Nat :=
  if purityShort a r && j.c < a.purity then
    ceilDiv (1000 * (a.purity * r.flow - r.methane)) (j.q * (a.purity - j.c))
  else 0

/-- The oxygen fraction f_o (R111). -/
def oxygenFraction (a : DeficitAim) (r : Running) (j : Candidate) : Nat :=
  if oxygenOver a r && a.oxygen < j.o then
    ceilDiv (1000 * (r.oxygen - a.oxygen * r.flow)) (j.q * (j.o - a.oxygen))
  else 0

/-- The fraction f (R111). -/
def cutFraction (a : DeficitAim) (r : Running) (j : Candidate) : Nat :=
  min (max (purityFraction a r j) (oxygenFraction a r j)) 1000

/-- The step Δ of a candidate, 0 where it is skipped (R111, R112). -/
def cutStep (a : DeficitAim) (r : Running) (j : Candidate) : Nat :=
  if j.q = 0 then 0
  else min (ceilDiv (j.v * cutFraction a r j) 1000) (min a.maxStep (j.v - j.vMin))

/-- One candidate is examined: skipped, or adjusted with the predicted flow taken out (R111 to R113). -/
def examine (a : DeficitAim) (r : Running) (j : Candidate) : Running :=
  let step := cutStep a r j
  if step = 0 then r
  else
    let gone := j.q * step / j.v
    { flow := r.flow - gone
      methane := r.methane - gone * j.c
      oxygen := r.oxygen - gone * j.o
      adjustments := r.adjustments ++ [⟨j.station, j.v, j.v - step⟩] }

/-- The deficit procedure over the candidates in order (R110, R114). -/
def deficitLoop (a : DeficitAim) : List Candidate → Running → Running × RoundOutcome
  | [], r => (r, if deficient a r then .shortfall else .deficit)
  | j :: rest, r =>
    if deficient a r then
      if r.adjustments.length < Config.maxAdjustments then deficitLoop a rest (examine a r j) else (r, .deficit)
    else (r, .deficit)

/-! ### The surplus procedure (R115, R116) -/

/-- The adjustment a surplus candidate gets, where it passes (R116). -/
def surplusTry (b : BankSettings) (t : Totals) (j : Candidate) : Option Adjustment :=
  let step := min b.stepUp (j.vMax - j.v)
  let more := j.q * step / j.v
  if j.q ≠ 0 && purityTarget b * (t.flow + more) ≤ t.methane + more * j.c
      && t.oxygen + more * j.o ≤ oxygenTarget b * (t.flow + more) then
    some ⟨j.station, j.v, j.v + step⟩
  else none

/-! ### The decision (R104 to R108) -/

/-- The record of a round event (R99): what R102 to R116 compute from the state. -/
def roundRecord (s : State) : RoundRecord :=
  let b := s.settings.bank
  let t := totals s
  let kind := if s.bank.mode = .running then RoundKind.round else RoundKind.assessment
  let blank : RoundRecord :=
    { time := bankClock s, kind := kind, outcome := .noFlow, participants := t.participants, known := t.known
      knownFlow := t.flow, unknownFlow := t.unknownFlow, mixture := none, purityBreached := false
      oxygenBreached := false, adjustments := [], predicted := none }
  if t.flow = 0 then blank
  else if b.unknownShare * (t.flow + t.unknownFlow) < t.unknownFlow * 1000 then { blank with outcome := .incomplete }
  else
    let purityBreached : Bool := t.methane < b.purityFloor * t.flow
    let oxygenBreached : Bool := b.oxygenCeiling * t.flow < t.oxygen
    let judged := { blank with
      mixture := some (t.methane / t.flow, t.oxygen / t.flow)
      purityBreached := purityBreached
      oxygenBreached := oxygenBreached }
    if kind = .assessment then { judged with outcome := .held }
    else if purityBreached || oxygenBreached then
      let r := deficitLoop ⟨purityTarget b, oxygenTarget b, purityBreached, oxygenBreached, b.maxStepDown⟩
        (deficitOrder (candidates s)) ⟨t.flow, t.methane, t.oxygen, []⟩
      { judged with
        outcome := r.2
        adjustments := r.1.adjustments
        predicted := some (r.1.methane / r.1.flow, r.1.oxygen / r.1.flow) }
    else if (b.purityFloor + b.purityHysteresis) * t.flow ≤ t.methane
        && t.oxygen ≤ (b.oxygenCeiling - b.oxygenHysteresis) * t.flow then
      match (surplusOrder (candidates s)).findSome? (surplusTry b t) with
      | some adj => { judged with outcome := .surplus, adjustments := [adj] }
      | none => { judged with outcome := .surplusNone }
    else { judged with outcome := .band }

/-- PURITY_LOW after a round event (R104, R105, R107). -/
def purityLowAfter (s : State) (r : RoundRecord) : Bool :=
  match r.outcome with
  | .noFlow => false
  | .incomplete => s.balancer.purityLow
  | _ => (totals s).methane < tripFloorInUse s.settings.bank * (totals s).flow

/-- O2_HIGH after a round event (R104, R105, R107). -/
def o2HighAfter (s : State) (r : RoundRecord) : Bool :=
  match r.outcome with
  | .noFlow => false
  | .incomplete => s.balancer.o2High
  | _ => (tripCeilingInUse s.settings.bank + 1) * (totals s).flow ≤ (totals s).oxygen

/-! ### Handing on (R114, R117 to R119) -/

/-- The ROUND_SHORTFALL event of a change of SHORTFALL (R114). -/
def shortfallEvent (r : RoundRecord) (s : State) : State :=
  if r.outcome = .shortfall then
    if s.balancer.shortfall then s else raise .roundShortfall 0 (some .set) (r.predicted.map Prod.fst) s
  else if s.balancer.shortfall then raise .roundShortfall 0 (some .clear) none s
  else s

/-- The outcome events (R119). -/
def outcomeEvent (r : RoundRecord) (s : State) : State :=
  if s.balancer.lastRound.map RoundRecord.outcome = some r.outcome then s
  else match r.outcome with
    | .noFlow => raise .roundNoFlow 0 none none s
    | .incomplete =>
      raise .roundIncomplete 0 none (some (r.unknownFlow * 1000 / (r.knownFlow + r.unknownFlow))) s
    | _ => s

/-- The ADJUSTED event of one adjustment (R117). -/
def adjustedEvent (s : State) (a : Adjustment) : State :=
  raise .adjusted (stationNumber a.station) none (some a.new) s

/-- What the table reads to take or discard a round change (R12): the station's state, and the pinned field of a PRODUCING one. -/
def changeReads (a : Adjustment) (s : State) : List Nat :=
  workWords a.station ++ if (s.work a.station).state = .producing then [recordBase a.station + 3] else []

/-- A round change reaches the table: taken only by a station that is PRODUCING and not pinned (R12). -/
def roundChange (a : Adjustment) (acc : Access) (s : State) : State :=
  let s := acc.look (changeReads a s) s
  if (s.work a.station).state = .producing && !(s.cfg a.station).pinned then applyTarget acc a.station a.new s else s

/-- What a round event reads (R101): the balancer's settings, and of every station the working part with the words of v_min,
v_max and the pinned field. -/
def roundReads : List Nat :=
  (List.range 8).map (384 + ·) ++ allStations.flatMap fun i => workWords i ++ [recordBase i + 1, recordBase i + 3]

/-- The computation of a round event, a round in RUNNING and an assessment otherwise (R100): its record, its conditions and its
events. It changes no station (R101). A ROUND_SHORTFALL event comes before an outcome event of the same round (log 42). -/
def computeRound (_ : Access) (s : State) : State :=
  let r := roundRecord s
  let t := outcomeEvent r (shortfallEvent r (r.adjustments.foldl adjustedEvent s))
  { t with balancer :=
    { purityLow := purityLowAfter s r, o2High := o2HighAfter s r, shortfall := r.outcome = .shortfall
      lastRound := some r } }

/-- The adjustments of the last round are handed to the table when its computation has ended, each as a piece of work of its
own (R101, R117). -/
def handChanges (run : Reader) (s : State) : State :=
  match s.balancer.lastRound with
  | some r => r.adjustments.foldl (fun t a => run noWords (roundChange a) t) s
  | none => s

/-- The balancer takes a round event (R100): it reads and computes, and then the changes reach the table and the drive
(R101). -/
def roundEvent (run : Reader) (s : State) : State := handChanges run (run (fun _ => roundReads) computeRound s)

end Sys2Proof.Machine
end

