-- ==== Sys2Proof/Machine/Flags.lean ====
section
/-! DEFINITION. The conditions and flags that other blocks read: SUCTION_LOW, RECORD_DAMAGED, LINK_TRIP, the trip terms and
the trip function. -/

namespace Sys2Proof.Machine

/-- The suction entry of the input table (R49). -/
def suctionInput (s : State) : InputEntry := s.measure.inputs[32]

/-- SUCTION_LOW (R50): the suction loop FAULT or NOT_CONVERTED, or its value below the suction limit. -/
def suctionLow (s : State) : Bool :=
  match inputValue 80 (suctionInput s) with
  | none => true
  | some v => v < s.settings.bank.suctionLimit

/-- RECORD_DAMAGED (R192): the damaged-setting flag, or any station's damaged mark. -/
def recordDamaged (s : State) : Bool :=
  s.memory.damagedSetting || allStations.any (fun i => (s.work i).damaged)

/-- LINK_TRIP (R167): another part is sensed asserting the line while the part's own drive is not asserted. -/
def linkTrip (s : State) : Bool := s.pins.tripLineOthers && !s.trip.linkDrive

/-- The shared TRIP line as sensed (R167). -/
def tripLineSensed (s : State) : Bool := s.pins.tripLineOthers || s.trip.linkDrive

/-- The condition a source names (R166). -/
def condition (s : State) : TermSource → Bool
  | .none => false
  | .purityLow => s.balancer.purityLow
  | .o2High => s.balancer.o2High
  | .suctionLow => suctionLow s
  | .pumpStopped => s.pins.pumpOpen
  | .arrestorHot => s.pins.arrestorClosed
  | .linkTrip => linkTrip s
  | .recordDamaged => recordDamaged s
  | .analyserFault => s.sampler.analyserFault
  | .shortfall => s.balancer.shortfall

/-- A term's value: the condition, or its opposite when inverted (R166). -/
def termValue (s : State) (t : TripTerm) : Bool := xor (condition s t.source) t.invert

/-- A function of three term values (R168). -/
def TripFunction.value (f : TripFunction) (a b c : Bool) : Bool :=
  match f with
  | .off => false
  | .a => a
  | .aAndB => a && b
  | .aOrB => a || b
  | .any => a || b || c
  | .all => a && b && c
  | .twoOfThree => (a && b) || (a && c) || (b && c)

/-- The function output as the terms stand (R168). -/
def functionValue (s : State) : Bool :=
  s.settings.trip.function.value (termValue s s.settings.trip.termA) (termValue s s.settings.trip.termB)
    (termValue s s.settings.trip.termC)

/-- The persistence of a code, in ms (R169). -/
def persistenceOf : Nat → Nat
  | 0 => 0 | 1 => 1000 | 2 => 2000 | 3 => 5000 | 4 => 10000 | 5 => 20000 | 6 => 30000 | _ => 60000

end Sys2Proof.Machine
end

