-- ==== Sys2Proof/Machine/Trip.lean ====
section
/-! DEFINITION. The trip unit (chapter 8): evaluation, persistence, the trip with its stand-down, and leaving TRIPPED; and
the changes of bank mode (chapter 7). -/

namespace Sys2Proof.Machine

/-! ### Bank mode (R150, R157) -/

/-- The code of a bank mode (R157). -/
def BankMode.code : BankMode → Nat
  | .idle => 0
  | .running => 1
  | .tripped => 2

/-- The bank mode changes: the isolation line is ENERGISED in RUNNING alone (R150), and a MODE event is raised (R157). -/
def setMode (m : BankMode) (s : State) : State :=
  raise .mode 0 none (some (m.code + 16 * s.bank.mode.code))
    { s with bank := { s.bank with mode := m, isolation := m = .running } }

/-! ### The trip (R170, R171, R28) -/

/-- A term as the trip record keeps it (R171). -/
def readTerm (s : State) (t : TripTerm) : TermReading :=
  { source := t.source, invert := t.invert, condition := condition s t.source, value := termValue s t }

/-- The latch of a trip (R170, step 1). -/
def latchOf (s : State) (o : TripOrigin) : TripLatch :=
  let t := s.settings.trip
  if o = .function && [t.termA, t.termB, t.termC].any (fun x => x.source = .linkTrip && termValue s x) then .linkTrip
  else .localTrip

/-- The trip record (R171). -/
def tripRecordOf (s : State) (o : TripOrigin) : TripRecord :=
  { time := bankClock s, origin := o, latch := latchOf s o, function := s.settings.trip.function
    persistence := s.settings.trip.persistence, termA := readTerm s s.settings.trip.termA
    termB := readTerm s s.settings.trip.termB, termC := readTerm s s.settings.trip.termC }

/-- The value of a TRIP event (R170, step 6). -/
def tripEventValue (r : TripRecord) : Nat :=
  (if r.origin = .command then 1 else 0) + 2 * r.termA.value.toNat + 4 * r.termB.value.toNat
    + 8 * r.termC.value.toNat + (if r.latch = .linkTrip then 16 else 0)

/-- The trip line as a trip asserts it (R172). -/
def tripLineFrom (now : Nat) : PulseWidth → TripLine
  | .s1 => .pulse (now + 1000)
  | .s2 => .pulse (now + 2000)
  | .s5 => .pulse (now + 5000)
  | .held => .held

/-- The stations whose target the stand-down changes (R28). -/
def standDownChanges (s : State) : List StationIx := allStations.filter (fun i => (s.work i).target ≠ 0)

/-- The target change of a stand-down, which passes no move request (R11, R28). -/
def StationWork.closed (w : StationWork) : StationWork :=
  if w.target = 0 then w else { w with target := 0, fresh := false, settleExpiry := none }

/-- One station of the stand-down (R28): PRODUCING and QUARANTINED become STANDBY with the restart mark set, a claim is
released (R75), and the sample in flight is left (R35). Every target becomes 0. -/
def standDown (i : StationIx) (a : Access) (s : State) : State :=
  let changed : List WorkField := if (s.work i).target = 0 then [] else targetFields
  if (s.work i).state.active then
    releaseClaim a i (raise .state (stationNumber i) none (some StationState.standby.eventValue)
      (putWork a i ([.state, .restartMark, .recoveryRun] ++ changed)
        { (s.work i).closed with state := .standby, restartMark := true, recoveryRun := 0 } s))
  else putWork a i changed (s.work i).closed s

/-- The trip unit's part of a trip, in its six steps (R170): the MODE event at step 4, the TRIP event at step 6. -/
def tripUnit (o : TripOrigin) (s : State) : State :=
  let r := tripRecordOf s o
  let latched := { s with trip := { s.trip with latch := r.latch, record := some r, timer := none } }
  let moded := setMode .tripped latched
  let lined := { moded with trip := { moded.trip with
    line := tripLineFrom s.elapsed s.settings.trip.pulseWidth, linkDrive := r.latch = .localTrip } }
  raise .trip 0 none (some (tripEventValue r)) lined

/-- The station table's part of a trip, once it has read every station's working part: the stations are stood down, and their
STATE events raised, in ascending number (R28, log 42). -/
def standDownAll (run : Reader) (s : State) : State := forStations (fun i t => run noWords (standDown i) t) s

/-- A trip (R170, R154, R28, R143), once words 404 and 405, which its record and its line take, have been read. The blocks that
act on the change of mode make their reads behind the MODE event (R157) and the TRIP event (R170). -/
def trip (run : Reader) (o : TripOrigin) (s : State) : State :=
  let t := run (fun _ => allWorkWords) nothing (run noWords (fun _ => tripUnit o) s)
  run noWords startSampler (run noWords (fun a => tripOrder a (standDownChanges t)) (standDownAll run t))

/-! ### Evaluation and persistence (R168, R169) -/

/-- The function output is brought up to date (R168). -/
def refreshOutput (s : State) : State := { s with trip := { s.trip with output := functionValue s } }

/-- The persistence timer follows the output while the unit is active (R169). -/
def followOutput (s : State) : State :=
  if s.bank.mode = .tripped || !s.trip.output then { s with trip := { s.trip with timer := none } }
  else match s.trip.timer with
    | some _ => s
    | none => { s with trip := { s.trip with timer := some s.elapsed } }

/-- An evaluation that leads from `s` to `t` has brought something about: the output has changed, or the timer has started. -/
def tripActs (s t : State) : Bool := s.trip.output ≠ t.trip.output || (s.trip.timer.isNone && t.trip.timer.isSome)

/-- The timer runs with a persistence of 0: the bank is tripped at once (R169). -/
def tripDue (s : State) : Bool := s.trip.timer.isSome && persistenceOf s.settings.trip.persistence = 0

/-- The output is evaluated and feeds the timer (R168, R169). An evaluation that brings nothing about reads its words only where
its caller says so (log 7). -/
def evaluateOutput (a : Access) (s : State) : State :=
  let t := followOutput (refreshOutput s)
  a.look (if tripActs s t || tripDue t then [404, 405] else []) t

/-- A trip, with the output brought up to date behind it: the part's own link TRIP drive may have changed it (R167). -/
def tripAndRefresh (run : Reader) (o : TripOrigin) (s : State) : State := refreshOutput (trip run o s)

/-- The trip that an evaluation finds due (R169). -/
def tripIfDue (run : Reader) (s : State) : State := if tripDue s then tripAndRefresh run .function s else s

/-- The output is evaluated behind reads of the words that `need` names, and the bank is tripped where that is due (R168,
R169). -/
def evaluateTrip (run : Reader) (need : State → List Nat) (s : State) : State := tripIfDue run (run need evaluateOutput s)

/-- The timer is stopped, so that an evaluation starts it from 0 (R175, R176). -/
def restartPersistence (s : State) : State := { s with trip := { s.trip with timer := none } }

/-- The bank mode has left TRIPPED (R174). -/
def leaveTripped (s : State) : State :=
  { s with trip := { s.trip with latch := .clear, line := .released, linkDrive := false, timer := none } }

end Sys2Proof.Machine
end

