-- ==== Sys2Proof/Machine/Link.lean ====
section
/-! DEFINITION. The round timer (chapter 7, section 7.4) and the bank link (chapter 8, section 8.8): MARK, the hold, loss and
return, and a change of role. -/

namespace Sys2Proof.Machine

/-- The round timer's next expiry is set to now plus the balance period (R159). -/
def startRoundTimer (s : State) : State :=
  { s with bank := { s.bank with roundTimer := expiryAfter s s.settings.bank.balancePeriod } }

/-- A round event, and the hold it ends: the round runs first, then the parked items are handed on (R178, R180). -/
def takeRound (run : Reader) (s : State) : State := endHold run (roundEvent run s)

/-- The hold lead in ms (R177). -/
def holdLeadMs (s : State) : Nat := s.settings.bank.holdLead * 500

/-- A MASTER drives MARK active now and begins its hold (R178). -/
def beginLead (s : State) : State :=
  { s with link := { s.link with markDrive := true, hold := true, lastMark := some (bankClock s), markPulseEnd := none } }

/-- A MASTER with a hold lead of 0 drives MARK active for 0.1 s at the round time (R178). -/
def beginMarkPulse (s : State) : State :=
  { s with link := { s.link with
      markDrive := true, lastMark := some (bankClock s), markPulseEnd := some (s.elapsed + Config.markPulse) } }

/-- MARK is driven inactive. -/
def releaseMark (s : State) : State := { s with link := { s.link with markDrive := false, markPulseEnd := none } }

/-- What a MASTER does with MARK at the round time (R178): it ends its lead, or begins the pulse of a hold lead of 0. -/
def markAtRound (s : State) : State :=
  if s.settings.bank.role = .master then
    if s.link.hold then releaseMark s else if s.settings.bank.holdLead = 0 then beginMarkPulse s else s
  else s

/-- The round timer has expired (R159, R178): the round event is taken, and the next expiry is set. -/
def roundTimerFires (run : Reader) (s : State) : State :=
  run (fun _ => [403]) (fun _ => startRoundTimer) (takeRound run (run (fun _ => [406]) (fun _ => markAtRound) s))

/-- A running round timer is restarted, by BANK SET or by damage of its word (R160). During a lead of a part whose role is
`role`, MASTER, MARK is driven inactive and the round event is taken then (R178; log 22 where a BANK SET carries a role too).
During a hold the role is read. -/
def restartRoundTimer (run : Reader) (role : LinkRole) (s : State) : State :=
  if s.bank.roundTimer.isSome then
    let t := run (fun u => if u.link.hold then [406] else []) nothing s
    if role = .master && t.link.hold then startRoundTimer (takeRound run (releaseMark t)) else startRoundTimer t
  else s

/-- The round timer starts if it was stopped (R159). -/
def ensureRoundTimer (run : Reader) (s : State) : State :=
  if s.bank.roundTimer.isSome then s else run (fun _ => [403]) (fun _ => startRoundTimer) s

/-- Less than the hold lead remains to the next expiry (R183). -/
def insideLead (s : State) : Bool :=
  match s.bank.roundTimer with
  | some e => instantOf e < s.elapsed + holdLeadMs s
  | none => false

/-- The link as a part that has just become a SLAVE holds it (R177, R183). -/
def Link.enterSlave (l : Link) (now : Nat) (clock : Nat) (markActive : Bool) : Link :=
  { l with state := .inStep, inStepSince := clock, markSince := if markActive then some now else none }

/-- The link as a part that is no SLAVE holds it: IN_STEP, with no mark watch (R177, R183). -/
def Link.leaveSlave (l : Link) : Link := { l with state := .inStep, markSince := none }

/-- A change of role takes effect (R183). The new role is stored already; `old` is the one before.
DESIGN CHOICE (log 45): R159 says of a change between ALONE and MASTER that it leaves the timer running as it was, and nothing of
one that R149 has stopped at the end of the clock. The model starts such a timer, as it does at a change from SLAVE, where an
expiry can be formed. -/
def changeRole (run : Reader) (old : LinkRole) (s : State) : State :=
  let t := endHold run s
  let u := if old = .master then releaseMark t else t
  match s.settings.bank.role with
  | .slave =>
    { u with
      link := u.link.enterSlave u.elapsed (bankClock u) u.pins.markActive
      bank := { u.bank with roundTimer := none } }
  | .alone => ensureRoundTimer run { u with link := u.link.leaveSlave }
  | .master =>
    let v := ensureRoundTimer run { u with link := u.link.leaveSlave }
    if insideLead v then beginLead v else v

/-- The MARK line as sensed. A SLAVE alone reads it, so the mark watch is a SLAVE's (R177 to R179). -/
def senseMark (active : Bool) (s : State) : State :=
  { s with
    pins := { s.pins with markActive := active }
    link := if s.settings.bank.role = .slave then { s.link with markSince := if active then some s.elapsed else none }
      else s.link }

/-- A rising edge of MARK (R179, R182, log 24). -/
def markRises (s : State) : State :=
  let t := senseMark true s
  if s.settings.bank.role = .slave then
    { t with link := { t.link with lastMark := some (bankClock s), hold := s.link.hold || s.link.state = .inStep } }
  else t

/-- A falling edge completes a mark that rose within 10 s (R182). -/
def markCompletes (s : State) : Bool :=
  match s.link.markSince with
  | some t => s.elapsed ≤ t + Config.markComplete
  | none => false

/-- A SLAVE in step has a hold, so that a falling edge is its round event (R179). -/
def fallIsRound (s : State) : Bool := s.settings.bank.role = .slave && s.link.state = .inStep && s.link.hold

/-- A LOST SLAVE returns to IN_STEP (R182). -/
def returnToStep (s : State) : State :=
  raise .linkBack 0 none none { s with
    link := { s.link with state := .inStep, inStepSince := bankClock s }
    bank := { s.bank with roundTimer := none } }

/-- A falling edge of MARK that is no round event (R179, R182). -/
def markFalls (s : State) : State :=
  let t := senseMark false s
  if s.settings.bank.role = .slave && s.link.state = .lost && markCompletes s then returnToStep t else t

/-- The instant at which MARK has been active over 10 s (R181, cause 1). -/
def stuckAt (s : State) : Option Nat := s.link.markSince.map (· + Config.markStuck)

/-- The instant at which three balance periods have passed without a rising edge (R181, cause 2). -/
def silentAt (s : State) : Option Nat :=
  let reading := max (s.link.lastMark.getD 0) s.link.inStepSince + 3 * s.settings.bank.balancePeriod
  if reading ≤ Config.clockMax then some (instantOf reading) else none

/-- The earlier cause of loss, with its instant (R181). -/
def lossDue (s : State) : Option (Nat × Nat) :=
  match stuckAt s, silentAt s with
  | some a, some b => if a ≤ b then some (a, 1) else some (b, 2)
  | some a, none => some (a, 1)
  | none, some b => some (b, 2)
  | none, none => none

/-- A SLAVE becomes LOST (R181). -/
def loseLink (run : Reader) (cause : Nat) (s : State) : State :=
  run (fun _ => [403]) (fun _ t => raise .linkLost 0 none (some cause) (startRoundTimer t))
    (endHold run { s with link := { s.link with state := .lost } })

end Sys2Proof.Machine
end

