-- ==== Sys2Proof/Machine/Settings.lean ====
section
/-! DEFINITION. The settings by item code and by protected word (R186, R216): ranges, cross checks, reading and storing one
item, restoring a word, and what the owner does on a change. -/

namespace Sys2Proof.Machine

/-! ### Codes of the named settings (R175, R216) -/

def LinkRole.code : LinkRole → Nat
  | .alone => 0
  | .master => 1
  | .slave => 2

def LinkRole.ofCode : Nat → LinkRole
  | 1 => .master
  | 2 => .slave
  | _ => .alone

def TermSource.code : TermSource → Nat
  | .none => 0 | .purityLow => 1 | .o2High => 2 | .suctionLow => 3 | .pumpStopped => 4 | .arrestorHot => 5
  | .linkTrip => 6 | .recordDamaged => 7 | .analyserFault => 8 | .shortfall => 9

def TermSource.ofCode : Nat → TermSource
  | 1 => .purityLow | 2 => .o2High | 3 => .suctionLow | 4 => .pumpStopped | 5 => .arrestorHot | 6 => .linkTrip
  | 7 => .recordDamaged | 8 => .analyserFault | 9 => .shortfall | _ => .none

def TripFunction.code : TripFunction → Nat
  | .off => 0 | .a => 1 | .aAndB => 2 | .aOrB => 3 | .any => 4 | .all => 5 | .twoOfThree => 6

def TripFunction.ofCode : Nat → TripFunction
  | 1 => .a | 2 => .aAndB | 3 => .aOrB | 4 => .any | 5 => .all | 6 => .twoOfThree | _ => .off

def PulseWidth.code : PulseWidth → Nat
  | .s1 => 0 | .s2 => 1 | .s5 => 2 | .held => 3

def PulseWidth.ofCode : Nat → PulseWidth
  | 0 => .s1 | 1 => .s2 | 2 => .s5 | _ => .held

def NoticeMode.code : NoticeMode → Nat
  | .off => 0 | .line => 1 | .frames => 2

def NoticeMode.ofCode : Nat → NoticeMode
  | 1 => .line | 2 => .frames | _ => .off

/-! ### BANK SET items -/

/-- The value of a BANK SET item as stored, by item code 1..33 (R216). -/
def BankSettings.item (b : BankSettings) : Nat → Nat
  | 1 => b.purityFloor | 2 => b.purityHysteresis | 3 => b.oxygenCeiling | 4 => b.oxygenHysteresis
  | 5 => b.tripFloor | 6 => b.tripCeiling | 7 => b.maxStepDown | 8 => b.stepUp | 9 => b.unknownShare
  | 10 => b.staleLimit | 11 => b.mark0 | 12 => b.mark1 | 13 => b.mark2 | 14 => b.mark3 | 15 => b.windowLength
  | 16 => b.suctionLimit | 17 => b.nearPurge | 18 => b.nearCount | 19 => b.farPurge | 20 => b.farCount
  | 21 => b.referenceInterval | 22 => b.slotCount | 23 => b.startGap | 24 => b.inchBand | 25 => b.inchOn
  | 26 => b.inchPeriod | 27 => b.stallTime | 28 => b.moveTimeout | 29 => b.settleTime | 30 => b.balancePeriod
  | 31 => b.role.code | 32 => b.holdLead | 33 => b.scrubCode
  | _ => 0

/-- Stores one BANK SET item (R216). -/
def BankSettings.store (b : BankSettings) (code v : Nat) : BankSettings :=
  match code with
  | 1 => { b with purityFloor := v } | 2 => { b with purityHysteresis := v } | 3 => { b with oxygenCeiling := v }
  | 4 => { b with oxygenHysteresis := v } | 5 => { b with tripFloor := v } | 6 => { b with tripCeiling := v }
  | 7 => { b with maxStepDown := v } | 8 => { b with stepUp := v } | 9 => { b with unknownShare := v }
  | 10 => { b with staleLimit := v } | 11 => { b with mark0 := v } | 12 => { b with mark1 := v }
  | 13 => { b with mark2 := v } | 14 => { b with mark3 := v } | 15 => { b with windowLength := v }
  | 16 => { b with suctionLimit := v } | 17 => { b with nearPurge := v } | 18 => { b with nearCount := v }
  | 19 => { b with farPurge := v } | 20 => { b with farCount := v } | 21 => { b with referenceInterval := v }
  | 22 => { b with slotCount := v } | 23 => { b with startGap := v } | 24 => { b with inchBand := v }
  | 25 => { b with inchOn := v } | 26 => { b with inchPeriod := v } | 27 => { b with stallTime := v }
  | 28 => { b with moveTimeout := v } | 29 => { b with settleTime := v } | 30 => { b with balancePeriod := v }
  | 31 => { b with role := LinkRole.ofCode v } | 32 => { b with holdLead := v } | 33 => { b with scrubCode := v }
  | _ => b

/-- The range of a BANK SET item (R42, R50, R57, R83, R96, R145, R160, R177, R193). The bounds P_f of P_trip and O_c of
O_trip are the cross checks of R97. -/
def bankRange : Nat → Nat × Nat
  | 1 => (200, 600) | 2 => (10, 100) | 3 => (20, 150) | 4 => (6, 50) | 5 => (150, 600) | 6 => (20, 200)
  | 7 => (20, 500) | 8 => (10, 200) | 9 => (0, 500) | 10 => (60, 7200)
  | 11 => (0, 1000) | 12 => (0, 1000) | 13 => (0, 1000) | 14 => (0, 1000) | 15 => (1, 8) | 16 => (0, 80)
  | 17 => (5, 250) | 18 => (1, 4) | 19 => (5, 250) | 20 => (1, 4) | 21 => (0, 15) | 22 => (1, 4) | 23 => (0, 60)
  | 24 => (10, 100) | 25 => (1, 20) | 26 => (5, 50) | 27 => (2, 30) | 28 => (30, 600) | 29 => (0, 600)
  | 30 => (10, 600) | 31 => (0, 2) | 32 => (0, 15) | 33 => (0, 7)
  | _ => (1, 0)

/-- A value a BANK SET item may carry: in its range, H and H_o even (R97), the window length a power of two (R42). An
unknown code has none. -/
def bankItemOk (code v : Nat) : Bool :=
  (bankRange code).1 ≤ v && v ≤ (bankRange code).2 &&
    (match code with
     | 2 => v % 2 = 0
     | 4 => v % 2 = 0
     | 15 => v = 1 || v = 2 || v = 4 || v = 8
     | _ => true)

/-- The word a BANK SET item is stored in (R186). -/
def bankWord : Nat → Nat
  | 1 => 384 | 2 => 385 | 3 => 386 | 4 => 387 | 5 => 388 | 6 => 389 | 7 => 390 | 8 => 390 | 9 => 391 | 10 => 391
  | 11 => 392 | 12 => 392 | 13 => 393 | 14 => 393 | 15 => 394 | 16 => 394 | 17 => 395 | 18 => 395 | 19 => 396
  | 20 => 396 | 21 => 397 | 22 => 398 | 23 => 398 | 24 => 399 | 25 => 400 | 26 => 400 | 27 => 401 | 28 => 401
  | 29 => 402 | 30 => 403 | 31 => 406 | 32 => 406 | 33 => 407
  | _ => 0

/-- The item codes of BANK SET. -/
def bankCodes : List Nat := (List.range 33).map (· + 1)

/-- The cross checks a request that carries `codes` must pass on the resulting settings (R97, R145). -/
def bankCrossOk (codes : List Nat) (b : BankSettings) : Bool :=
  (!(codes.contains 1 || codes.contains 5) || b.tripFloor ≤ b.purityFloor) &&
  (!(codes.contains 3 || codes.contains 6) || b.oxygenCeiling ≤ b.tripCeiling) &&
  (!(codes.contains 3 || codes.contains 4) || b.oxygenHysteresis ≤ b.oxygenCeiling) &&
  (!(codes.contains 25 || codes.contains 26) || b.inchOn < b.inchPeriod)

/-! ### TRIP SET, NOTICE SET and CAST SET items -/

/-- A value a TRIP SET item may carry (R175, R216). -/
def tripItemOk (code v : Nat) : Bool :=
  match code with
  | 1 => v ≤ 9 | 3 => v ≤ 9 | 5 => v ≤ 9
  | 2 => v ≤ 1 | 4 => v ≤ 1 | 6 => v ≤ 1
  | 7 => v ≤ 6 | 8 => v ≤ 7 | 9 => v ≤ 3
  | _ => false

/-- Stores one TRIP SET item (R175, R216). -/
def TripSettings.store (t : TripSettings) (code v : Nat) : TripSettings :=
  match code with
  | 1 => { t with termA := { t.termA with source := TermSource.ofCode v } }
  | 2 => { t with termA := { t.termA with invert := v = 1 } }
  | 3 => { t with termB := { t.termB with source := TermSource.ofCode v } }
  | 4 => { t with termB := { t.termB with invert := v = 1 } }
  | 5 => { t with termC := { t.termC with source := TermSource.ofCode v } }
  | 6 => { t with termC := { t.termC with invert := v = 1 } }
  | 7 => { t with function := TripFunction.ofCode v }
  | 8 => { t with persistence := v }
  | 9 => { t with pulseWidth := PulseWidth.ofCode v }
  | _ => t

/-- The word a TRIP SET item is stored in (R176). -/
def tripWord (code : Nat) : Nat := if code ≤ 6 then 404 else 405

/-- A value a NOTICE SET item may carry (R201, R216). -/
def noticeItemOk (code v : Nat) : Bool :=
  match code with
  | 1 => v ≤ 2
  | 2 => v ≤ 15
  | 3 => v = 1 || v = 2 || v = 4
  | 4 => v ≤ 1
  | 5 => v ≤ 1
  | _ => false

/-- Stores one NOTICE SET item (R201, R216). -/
def NoticeSettings.store (n : NoticeSettings) (code v : Nat) : NoticeSettings :=
  match code with
  | 1 => { n with mode := NoticeMode.ofCode v }
  | 2 => { n with mask := CategorySet.ofNat v }
  | 3 => { n with classCount := v }
  | 4 => { n with noRetro := v = 1 }
  | 5 => { n with blink := v = 1 }
  | _ => n

/-- A value a CAST SET item may carry (R205, R216). -/
def castItemOk (code v : Nat) : Bool :=
  match code with
  | 1 => v ≤ 15
  | 2 => 1 ≤ v && v ≤ 16
  | 3 => v ≤ 16
  | 4 => v ≤ 1
  | 5 => 1 ≤ v && v ≤ 240
  | _ => false

/-- Stores one CAST SET item (R205, R216). -/
def CastSettings.store (k : CastSettings) (code v : Nat) : CastSettings :=
  match code with
  | 1 => { k with mask := CategorySet.ofNat v }
  | 2 => { k with base := v }
  | 3 => { k with count := v }
  | 4 => { k with bankEvents := v = 1 }
  | 5 => { k with monitorBase := v }
  | _ => k

/-! ### Words (R186) -/

/-- The settings of one word taken from `src`, the rest from `dst` (R186). -/
def copySettingWord (w : Nat) (src dst : Settings) : Settings :=
  match w with
  | 404 => { dst with trip := { dst.trip with
      termA := src.trip.termA, termB := src.trip.termB, termC := src.trip.termC } }
  | 405 => { dst with trip := { dst.trip with
      function := src.trip.function, persistence := src.trip.persistence, pulseWidth := src.trip.pulseWidth } }
  | 408 => { dst with notice := src.notice }
  | 409 => { dst with cast := src.cast }
  | _ => { dst with bank :=
      (bankCodes.filter (fun code => bankWord code = w)).foldl (fun b code => b.store code (src.bank.item code)) dst.bank }

/-- The configuration fields of one record word taken from `src`, the rest from `dst` (R1). -/
def copyConfigWord (k : Nat) (src dst : StationConfig) : StationConfig :=
  match k with
  | 0 => { dst with k := src.k }
  | 1 => { dst with vMin := src.vMin, vMax := src.vMax }
  | 2 => { dst with startOpening := src.startOpening, manualOpening := src.manualOpening }
  | 3 => { dst with sniffOpening := src.sniffOpening, standbyLine := src.standbyLine, pinned := src.pinned }
  | 4 => { dst with markA := src.markA, markB := src.markB, eventCode := src.eventCode }
  | 5 => { dst with recoveryCount := src.recoveryCount, quarantineLimit := src.quarantineLimit }
  | _ => dst

/-- The sweep entries of one word taken from `src`, the rest from `dst`: entry k is in word 448 + ⌊k / 4⌋ (R59). -/
def copySweepWord (w : Nat) (src dst : SweepEntries) : SweepEntries :=
  entriesFrom fun k => (if 448 + k / 4 = w then src else dst)[k]?.join

/-! ### Effects of a change -/

/-- The role has changed from `old` (R183). -/
def followRole (run : Reader) (old : LinkRole) (s : State) : State :=
  if s.settings.bank.role = old then s else changeRole run old s

/-- What the owner of a setting word does when the word takes its defaults (R186). `old` are the settings before; SUCTION_LOW
and the trip output are read afresh in any case (R50, R176). -/
def followWord (run : Reader) (w : Nat) (old : Settings) (s : State) : State :=
  match w with
  | 398 => run noWords grantTest s
  | 401 => run noWords timeoutDue s
  | 403 => restartRoundTimer run s.settings.bank.role s
  | 404 => restartPersistence s
  | 405 => restartPersistence s
  | 406 => followRole run old.bank.role s
  | 408 => { s with events := s.events.follow old.notice s.settings.notice }
  | _ => s

/-- What a BANK SET that carries an item brings about beside storing it (R127, R138, R160, R183). `old` are the settings
before: the restart of the round timer comes before the role's own effect, and so goes by the old role (log 22). -/
def followItem (run : Reader) (old : BankSettings) (s : State) (code : Nat) : State :=
  match code with
  | 22 => run noWords grantTest s
  | 23 => run noWords grantTest s
  | 28 => run noWords timeoutDue s
  | 30 => restartRoundTimer run old.role s
  | 31 => followRole run old.role s
  | _ => s

end Sys2Proof.Machine
end

