-- ==== Sys2Proof/Machine/Integrity.lean ====
section
/-! DEFINITION. Protected record memory (chapter 9): a checked read, corrections and write-backs, damage and what each owner
does with it, and the end of a command. -/

namespace Sys2Proof.Machine

/-! ### Corrections (R188) -/

/-- A read is corrected: it is counted, and a write-back is made pending (R188). -/
def Memory.correct (m : Memory) (w : Nat) : Memory :=
  { m with
    corrections := min (m.corrections + 1) 65535
    writeBacks := if w ∈ m.writeBacks then m.writeBacks else m.writeBacks ++ [w] }

/-! ### Damage (R189 to R192) -/

/-- The damage list and the overflow count take a finding (R191). -/
def Memory.list (m : Memory) (w : Nat) : Memory :=
  if w ∈ m.damageList then m
  else if m.damageList.length < Config.damageCapacity then { m with damageList := m.damageList ++ [w] }
  else { m with damageOverflow := min (m.damageOverflow + 1) 255 }

/-- The station whose record holds a word, for words 0..383 (R186). -/
def stationOfWord (w : Nat) : Option StationIx := if h : w < 384 then some ⟨w / 24, by omega⟩ else none

/-- The station field of a RECORD_DAMAGED event (R189). -/
def damageStationNumber (w : Nat) : Nat :=
  match stationOfWord w with
  | some i => stationNumber i
  | none => 0

/-- The working part a damaged record is left with (R27): cold but for the position, which keeps mirroring the loop. -/
def StationWork.afterDamage (w : StationWork) : StationWork := { StationWork.cold with position := w.position }

/-- A damaged record word of an assigned station (R27). `k` is the record word. -/
def damageAssigned (i : StationIx) (k : Nat) (a : Access) (s : State) : State :=
  let written := rewriteWords ((recordBase i + k) :: workWords i)
    ((s.setCfg i (copyConfigWord k StationConfig.default (s.cfg i))).setWork i
      { (s.work i).afterDamage with state := .faulted .record, damaged := true })
  let told := raise .state (stationNumber i) none (some (StationState.faulted .record).eventValue) written
  moveRequest a i 0 (abandonFor a i (releaseClaim a i told))

/-- A part of the quality result is taken from `src`, where both hold a result. -/
def StationWork.copyPart (src dst : StationWork) (f : QualityResult → QualityResult → QualityResult) : StationWork :=
  { dst with quality := dst.quality.map fun q => (src.quality.map fun p => f p q).getD q }

/-- One working field taken from `src`, the rest from `dst`. The motion status and the sample line in use, which the drive and
the sampler write, stand as those have them. A result that becomes present is taken whole. -/
def StationWork.copyField (src dst : StationWork) : WorkField → StationWork
  | .state => { dst with state := src.state }
  | .sampleLine => dst
  | .target => { dst with target := src.target }
  | .position => { dst with position := src.position }
  | .motionStatus => dst
  | .lastMoveDone => { dst with lastMoveDone := src.lastMoveDone }
  | .settleExpiry => { dst with settleExpiry := src.settleExpiry }
  | .fresh => { dst with fresh := src.fresh }
  | .quality => { dst with quality := src.quality.map fun p => dst.quality.getD p }
  | .qualityC => copyPart src dst fun p q => { q with c := p.c }
  | .qualityO => copyPart src dst fun p q => { q with o := p.o }
  | .qualityReadings => copyPart src dst fun p q => { q with readings := p.readings }
  | .qualityOverRange => copyPart src dst fun p q => { q with overRange := p.overRange }
  | .qualityStart => copyPart src dst fun p q => { q with start := p.start }
  | .qualityFiled => copyPart src dst fun p q => { q with filed := p.filed }
  | .qualityArea => copyPart src dst fun p q => { q with area := p.area }
  | .qualityLine => copyPart src dst fun p q => { q with line := p.line }
  | .flowQ => { dst with flow := { dst.flow with q := src.flow.q } }
  | .flowDp => { dst with flow := { dst.flow with dp := src.flow.dp } }
  | .flowSaturated => { dst with flow := { dst.flow with saturated := src.flow.saturated } }
  | .flowClamped => { dst with flow := { dst.flow with clamped := src.flow.clamped } }
  | .flowTime => { dst with flow := { dst.flow with time := src.flow.time } }
  | .flowValid => { dst with flow := { dst.flow with valid := src.flow.valid } }
  | .recoveryRun => { dst with recoveryRun := src.recoveryRun }
  | .quarantineCount => { dst with quarantineCount := src.quarantineCount }
  | .damaged => { dst with damaged := src.damaged }
  | .restartMark => { dst with restartMark := src.restartMark }

/-- The quality result is one field of R6, absent when cold: the loss of a part of it loses it. -/
def WorkField.lost : WorkField → WorkField
  | .qualityC | .qualityO | .qualityReadings | .qualityOverRange | .qualityStart | .qualityFiled | .qualityArea
  | .qualityLine => .quality
  | f => f

/-- A working field at its cold value (R9). -/
def StationWork.chill (w : StationWork) (f : WorkField) : StationWork := StationWork.copyField StationWork.cold w f.lost

/-- Every working field. -/
def allWorkFields : List WorkField :=
  [.state, .sampleLine, .target, .position, .motionStatus, .lastMoveDone, .settleExpiry, .fresh] ++ qualityFields ++
    [.flowQ, .flowDp, .flowSaturated, .flowClamped, .flowTime, .flowValid, .recoveryRun, .quarantineCount, .damaged,
      .restartMark]

/-- The working fields that record word `k` holds (log 23). -/
def fieldsInWord (k : Nat) : List WorkField :=
  allWorkFields.filter fun f => (List.finRange 16).any fun j => 8 + j.val = k && Config.workWordHolds f j

/-- The words of a station's record that hold a working field (log 23). -/
def fieldWords (i : StationIx) (f : WorkField) : List Nat :=
  ((List.finRange 16).filter (Config.workWordHolds f)).map (recordBase i + 8 + ·.val)

/-- A damaged record word of an UNUSED station (R27, R190): the word alone is rewritten, each field it holds with its default or
cold value. Which working fields it holds is a free value (log 23). -/
def damageUnused (i : StationIx) (k : Nat) (s : State) : State :=
  rewriteWords [recordBase i + k]
    (if k < 8 then s.setCfg i (copyConfigWord k StationConfig.default (s.cfg i))
     else s.setWork i ((fieldsInWord k).foldl StationWork.chill (s.work i)))

/-- The pointer after the sweep entries `first` to `first` + 3 are removed, for a list of `length` entries left (R61). -/
def pointerAfter (first length pointer : Nat) : Nat :=
  let p := if pointer < first then pointer else if pointer < first + 4 then first else pointer - 4
  if p < length then p else 0

/-- The entries of a sweep-list word are removed, the entries after them close up, and the word and the words after it are
rewritten with zeros after the new end, which is the first 0 the surviving words show (R61). -/
def closeUpSweep (w : Nat) (s : State) : State :=
  let first := 4 * (w - 448)
  let stored := s.sampler.sweepEntries.toList
  let left := stationsUpToEnd (stored.take first ++ stored.drop (first + 4))
  rewriteWords ((List.range (456 - w)).map (w + ·))
    { s with sampler := { s.sampler with
        sweepEntries := entriesFrom fun k => if k < first then stored[k]?.join else left[k]?
        pointer := pointerAfter first left.length s.sampler.pointer } }

/-- A damaged sweep-list word (R61, R190): the words after it are read, since their entries close up. -/
def damageSweep (run : Reader) (w : Nat) (s : State) : State :=
  run (fun _ => (List.range (455 - w)).map (w + 1 + ·)) (fun _ => closeUpSweep w) s

/-- A damaged setting word (R190, R192). -/
def damageSetting (run : Reader) (w : Nat) (s : State) : State :=
  let restored := rewriteWords [w] { s with
    settings := copySettingWord w Settings.default s.settings
    memory := { s.memory with damagedSetting := true } }
  followWord run w s.settings restored

/-- A damaged word of a station's record (R27, R190): the table reads the station's working part, which holds its state. -/
def damageRecord (run : Reader) (i : StationIx) (k : Nat) (s : State) : State :=
  run (fun _ => workWords i)
    (fun a t => if (t.work i).state.assigned then damageAssigned i k a t else damageUnused i k t) s

/-- The owner puts a damaged word into a known state (R190). -/
def ownerHandles (run : Reader) (w : Nat) (s : State) : State :=
  match stationOfWord w with
  | some i => damageRecord run i (w % 24) s
  | none =>
    if w ≤ 409 then damageSetting run w s
    else if 448 ≤ w ∧ w ≤ 455 then damageSweep run w s
    else if w = 456 then rewriteWords [w] { s with sampler := { s.sampler with classes := allNear } }
    else rewriteWords [w] s

/-- A read finds a word damaged (R189): it is listed, reported by event, and handed to its owner. The finding is taken whole,
so no read made meanwhile finds the word again (log 7). -/
def damageWord (run : Reader) (w : Nat) (s : State) : State :=
  ownerHandles run w
    (run noWords (fun _ => raise .recordDamaged (damageStationNumber w) none (some w))
      { s with memory := (s.memory.list w).rewrite w })

/-! ### A word with three or more wrong bits (R187, log 6) -/

/-- The data such a word is read as: free values for the fields that lie in it, and for a working field that lies in it in part
(log 23). What other words hold stands as it is. -/
def misread (w : Nat) (m : WordBits) (s : State) : State :=
  match stationOfWord w with
  | some i =>
    if w % 24 < 8 then s.setCfg i (copyConfigWord (w % 24) (Config.misreadConfig w m (s.cfg i)) (s.cfg i))
    else s.setWork i
      ((fieldsInWord (w % 24)).foldl (StationWork.copyField (Config.misreadWork w m (s.work i))) (s.work i))
  | none =>
    if w ≤ 409 then { s with settings := copySettingWord w (Config.misreadSettings w m s.settings) s.settings }
    else if 448 ≤ w ∧ w ≤ 455 then
      { s with sampler := { s.sampler with
          sweepEntries := copySweepWord w (Config.misreadSweep w m s.sampler.sweepEntries) s.sampler.sweepEntries } }
    else if w = 456 then
      { s with sampler := { s.sampler with classes := Config.misreadClasses w m s.sampler.classes } }
    else s

/-- Sets the wrong bits of a word. -/
def markWord (w : Nat) (m : WordBits) (s : State) : State :=
  { s with memory := { s.memory with wrongBits := setWrongBits w m s.memory.wrongBits } }

/-- Counts a corrected read of a word. -/
def correctWord (w : Nat) (s : State) : State := { s with memory := s.memory.correct w }

/-- A word with three or more wrong bits is read as it is found (R187): the part cannot tell it from another word that is
good, or has one wrong bit, or has two. -/
def readManyWrong (run : Reader) (w : Nat) (m : WordBits) (s : State) : State :=
  match Config.manyWrongBits w m with
  | .good => markWord w 0 (misread w m s)
  | .corrected => correctWord w (markWord w (BitVec.twoPow 39 (Config.remainingBit w m).val) (misread w m s))
  | .damaged => damageWord run w s

/-! ### Reading and writing (R187) -/

/-- A checked read of a word (R187). -/
def readWord (run : Reader) (w : Nat) (s : State) : State :=
  match countBits (wrongBitsIn s.memory.wrongBits w) with
  | 0 => s
  | 1 => correctWord w s
  | 2 => damageWord run w s
  | _ => readManyWrong run w (wrongBitsIn s.memory.wrongBits w) s

/-! ### The words a piece of work uses (log 7)

What a piece of work looks at and stores depends on what it does. A trial of it on the state as it stands notes both, in the
damage list and in the list of write-backs of the trial's own state, which no work looks at and which the trial empties first. -/

/-- Some words are looked at: those that hold wrong bits are noted, in the order in which they are used. -/
def noteLook (ws : List Nat) (s : State) : State :=
  { s with memory := { s.memory with
      damageList := s.memory.damageList ++ ws.filter (fun w => wrongBitsIn s.memory.wrongBits w ≠ 0) } }

/-- Fields of a station's working part are stored: its working words are looked at first, since the manual does not place the
fields in them (log 8), and those that hold the fields are noted as written. -/
def noteStore (i : StationIx) (fields : List WorkField) (s : State) : State :=
  let t := noteLook (if fields = [] then [] else workWords i) s
  { t with memory := { t.memory with writeBacks := t.memory.writeBacks ++ fields.flatMap (fieldWords i) } }

/-- The access of a trial. -/
def noting : Access := ⟨noteLook, noteStore⟩

/-- The state a trial begins with: nothing noted, and an empty event queue, so that an event raised always shows. -/
def trialOf (s : State) : State :=
  { s with
    events := { s.events with queue := [], overflow := 0 }
    memory := { s.memory with damageList := [], writeBacks := [] } }

/-- A trial of a piece of work. -/
def trial (work : Work) (s : State) : State := work noting (trialOf s)

/-- The words with wrong bits that a piece of work looks at, and 408 and 409 where it raises an event (R187). -/
def usedWords (work : Work) (s : State) : List Nat :=
  (trial work s).memory.damageList ++ if (trial work s).events.queue.isEmpty then [] else [408, 409]

/-- A piece of work has been carried out from `before`: the words that hold the fields it has stored have fresh check bits (R187,
log 8). -/
def noteWrites (work : Work) (before after : State) : State :=
  if before.memory.Clean then after else rewriteWords (trial work before).memory.writeBacks after

/-! ### Checked reads -/

/-- The first word among `ws` that holds wrong bits and is not in `done`. -/
def nextWrong (done ws : List Nat) (s : State) : Option Nat :=
  ws.find? fun w => !done.contains w && wrongBitsIn s.memory.wrongBits w ≠ 0

/-- Reads of the words that `need` names, one by one in its order (R187). A read may change what is needed next, so `need` is
asked again behind each; a word is read once. `fuel` counts the words with wrong bits: a read of another changes nothing. -/
def readInTurn (read : Nat → State → State) (need : State → List Nat) : Nat → List Nat → State → State
  | 0, _, s => s
  | fuel + 1, done, s =>
    match nextWrong done (need s) s with
    | some w => readInTurn read need fuel (w :: done) (read w s)
    | none => s

/-- Work behind the reads `check` makes of the words it looks at, before it begins and as it goes on. -/
def behind (check : (State → List Nat) → State → State) : Reader := fun need work s =>
  let t := check (fun u => need u ++ usedWords work u) s
  noteWrites work t (work plain t)

/-- Checked reads of the words that `need` names (R187). The handling of a damaged word makes checked reads of its own; it writes
the word first, so they go no deeper than there are wrong words, which is what the number counts. -/
def checkWith : Nat → (State → List Nat) → State → State
  | 0, _, s => s
  | n + 1, need, s => readInTurn (readWord (behind (checkWith n))) need s.memory.wrongBits.length [] s

/-- Checked reads of the words that `need` names. -/
def check (need : State → List Nat) (s : State) : State := checkWith s.memory.wrongBits.length need s

/-- Work behind its checked reads: how every block works. -/
def checked : Reader := behind check

/-! ### Evaluation of the trip function (R168, log 13) -/

/-- The sources of trip terms (R166). -/
def allSources : List TermSource :=
  [.none, .purityLow, .o2High, .suctionLow, .pumpStopped, .arrestorHot, .linkTrip, .recordDamaged, .analyserFault,
    .shortfall]

/-- A condition has changed. -/
def conditionsChanged (before after : State) : Bool := allSources.any (fun c => condition before c ≠ condition after c)

/-- The trip function is evaluated behind work that led from `before` to `after` (R168). Its words are read where a condition
has changed or the evaluation brings something about. -/
def judge (before after : State) : State :=
  evaluateTrip checked (fun _ => if conditionsChanged before after then [404, 405] else []) after

/-- Between `before` and `after` some word with more than one wrong bit has been read or written: damage may have been found. -/
def foundDamage (before after : State) : Bool :=
  before.memory.wrongBits.any fun e => 2 ≤ countBits e.2 && wrongBitsIn after.memory.wrongBits e.1 ≠ e.2

/-- The trip function is evaluated where damage may have been found, since RECORD_DAMAGED or a setting may have changed (R168,
R192). -/
def judgeFound (before after : State) : State := if foundDamage before after then judge before after else after

/-- A command's work behind its reads, with the evaluation that damage found meanwhile calls for. -/
def carryOut (need : State → List Nat) (work : Work) (s : State) : State := judgeFound s (checked need work s)

/-! ### The end of a command -/

/-- A command of the part's own blocks: nothing happens without power. -/
def perform (f : State → State) (s : State) : Result := .next (if s.powered then f s else s)

end Sys2Proof.Machine
end

