-- ==== Sys2Proof/Machine/Frames.lean ====
section
/-! DEFINITION. Frames (chapter 11, sections 11.1 and 11.2): numbers in bodies, the cyclic check, the receiver that follows a
frame byte by byte, and the time a frame takes on the line. -/

namespace Sys2Proof.Machine

/-! ### Numbers in a body (R210) -/

/-- The `n` lowest bytes of a number, most significant byte first (R210). -/
def bytesOf : Nat → Nat → List Byte
  | 0, _ => []
  | n + 1, v => BitVec.ofNat 8 (v / 256 ^ n) :: bytesOf n v

/-- The number two bytes carry (R210). -/
def twoBytes (high low : Byte) : Nat := 256 * high.toNat + low.toNat

/-! ### The check (R211) -/

/-- One bit of the cyclic check, generator 1021h. -/
def checkBit (r : BitVec 16) : BitVec 16 := if r.msb then (r <<< 1) ^^^ 0x1021 else r <<< 1

/-- One byte of the cyclic check, most significant bit first. -/
def checkByte (r : BitVec 16) (b : Byte) : BitVec 16 :=
  checkBit (checkBit (checkBit (checkBit (checkBit (checkBit (checkBit (checkBit
    (r ^^^ (b.setWidth 16 <<< 8)))))))))

/-- The check formed over the address, kind, length and body bytes of a frame (R211). -/
def frameCheck (bytes : List Byte) : BitVec 16 := bytes.foldl checkByte 0xFFFF

/-- The lead byte of a frame (R210). -/
def leadByte : Byte := 0xC5

/-- A whole frame as it travels (R210). -/
def frameBytes (address kind : Byte) (body : List Byte) : List Byte :=
  let counted := address :: kind :: BitVec.ofNat 8 body.length :: body
  leadByte :: counted ++ bytesOf 2 (frameCheck counted).toNat

/-- The longest body of a frame (R210). -/
def maxBody : Nat := 120

/-! ### The receiver (R211) -/

/-- The state behind the three header bytes: the frame is discarded where its length is above 120 (R211). -/
def Receiver.behindHeader (address kind length : Byte) : Receiver :=
  if maxBody < length.toNat then .hunt
  else if length = 0 then .check address kind length [] []
  else .body address kind length []

/-- The receiver takes one byte (R211). -/
def Receiver.take (r : Receiver) (b : Byte) : Receiver :=
  match r with
  | .hunt => if b = leadByte then .header [] else .hunt
  | .header [address, kind] => .behindHeader address kind b
  | .header taken => .header (taken ++ [b])
  | .body address kind length taken =>
    if taken.length + 1 < length.toNat then .body address kind length (taken ++ [b])
    else .check address kind length (taken ++ [b]) []
  | .check address kind length content taken =>
    if taken.length + 1 < 2 then .check address kind length content (taken ++ [b]) else .hunt

/-- The receiver takes some bytes in order. -/
def Receiver.takeAll (r : Receiver) (bytes : List Byte) : Receiver := bytes.foldl Receiver.take r

/-- A silence of more than 20 ms discards the frame in progress (R211). -/
def Receiver.silence (_ : Receiver) : Receiver := .hunt

/-! ### Ports -/

/-- The state of a port. -/
def State.port (s : State) : Port → PortState
  | .control => s.control
  | .monitor => s.monitor

/-- Replaces the state of a port. -/
def State.setPort (s : State) (p : Port) (v : PortState) : State :=
  match p with
  | .control => { s with control := v }
  | .monitor => { s with monitor := v }

/-- The receiver of a port takes some bytes. -/
def receive (p : Port) (bytes : List Byte) (s : State) : State :=
  s.setPort p { s.port p with receiver := (s.port p).receiver.takeAll bytes }

/-- A frame has been received whole: the receiver of its port is in HUNT again (R211). -/
def received (p : Port) (s : State) : State := s.setPort p { s.port p with receiver := .hunt }

/-- A port takes a held request, or releases it with none (R212, R213). -/
def setHeld (p : Port) (h : Option HeldRequest) (s : State) : State := s.setPort p { s.port p with held := h }

/-- Whether a frame names the part's own address (R209, R212). -/
def ownAddress (s : State) (address : Byte) : Bool := s.address ≠ 0 && address.toNat = s.address

/-- The broadcast address (R210). -/
def broadcast : Byte := 31

/-- The time in ms of a frame with `n` body bytes: ten bits a byte at 19,200 bit/s, rounded up (R209). -/
def frameTime (n : Nat) : Nat := ((n + 6) * 10000 + 19199) / 19200

/-- The instant at which the frame in progress on a port ends: now, where there is none. -/
def lineFree (p : Port) (s : State) : Nat :=
  match (s.port p).transmitter with
  | some f => f.until_
  | none => s.elapsed

/-- A port begins to send a frame now (R214). -/
def beginFrame (p : Port) (kind : Byte) (body : List Byte) (s : State) : State :=
  s.setPort p { s.port p with
    transmitter := some ⟨BitVec.ofNat 8 s.address, kind, body, s.elapsed + frameTime body.length⟩ }

end Sys2Proof.Machine
end

