-- ==== Sys2Proof/Machine/Operands.lean ====
section
/-! DEFINITION. Operand forms of the requests (R213, R216): status codes, items, body lengths, and the fields of STATION
SET. -/

namespace Sys2Proof.Machine

/-! ### Status codes (R213) -/

inductive Status where
  | ok | clamped | unknownKind | badLength | badValue | wrongMode | wrongState | queueFull | conditionPresent | readOnly
  deriving DecidableEq, Repr

def Status.code : Status → Byte
  | .ok => 0x00
  | .clamped => 0x01
  | .unknownKind => 0x10
  | .badLength => 0x11
  | .badValue => 0x12
  | .wrongMode => 0x13
  | .wrongState => 0x14
  | .queueFull => 0x15
  | .conditionPresent => 0x16
  | .readOnly => 0x17

/-! ### Body lengths (R216) -/

/-- A body of exactly `n` bytes. -/
def exactly (n len : Nat) : Bool := len = n

/-- A whole number of items of three bytes. -/
def wholeItems (len : Nat) : Bool := len % 3 = 0

/-- One station byte, then a whole number of items. -/
def stationItems (len : Nat) : Bool := len % 3 = 1

/-! ### Items (R216) -/

/-- An item: its code and its two-byte value. -/
structure Item where
  code : Nat
  value : Nat
  deriving DecidableEq, Repr

/-- The items a body carries. -/
def itemsOf : List Byte → List Item
  | c :: high :: low :: rest => ⟨c.toNat, twoBytes high low⟩ :: itemsOf rest
  | _ => []

/-- The codes of some items. -/
def codesOf (items : List Item) : List Nat := items.map Item.code

/-- Every item has a known code and a value it may carry, and no code comes twice (R216). -/
def itemsOk (ok : Nat → Nat → Bool) (items : List Item) : Bool :=
  items.all (fun it => ok it.code it.value) && (codesOf items).Nodup

/-- Whether items carry a code. -/
def carries (items : List Item) (code : Nat) : Bool := (codesOf items).contains code

/-- Whether items carry every code of a list. -/
def carriesAll (items : List Item) (codes : List Nat) : Bool := codes.all (carries items)

/-- Whether items carry some code of a list. -/
def carriesSome (items : List Item) (codes : List Nat) : Bool := codes.any (carries items)

/-! ### Single bytes (R216) -/

/-- The first byte of a body as a number; a body that reaches its owner has one. -/
def firstByte (body : List Byte) : Nat := (body.headD 0).toNat

/-- The station a body's first byte names (R18, R218). -/
def bodyStation (body : List Byte) : Option StationIx := stationOf (firstByte body)

/-- The operation of a STATION COMMAND body. -/
def bodyOperation (body : List Byte) : Nat := firstByte (body.drop 1)

/-- The line a number names (R56, R58). -/
def lineOf (n : Nat) : Option Line := if h : n < 19 then some ⟨n, h⟩ else none

/-- The pairs of a LINE SET body. -/
def pairsOf : List Byte → List (Nat × Nat)
  | a :: b :: rest => (a.toNat, b.toNat) :: pairsOf rest
  | _ => []

/-! ### STATION SET (R2, R13, R216) -/

/-- The codes of the thirteen fields. -/
def stationCodes : List Nat := (List.range 13).map (· + 1)

/-- A value a STATION SET item may carry (R2, R13). The upper bounds of v_max and of the start opening, which depend on other
fields, are checked on the resulting configuration. -/
def stationItemOk (code v : Nat) : Bool :=
  match code with
  | 1 => 1 ≤ v
  | 2 => 20 ≤ v && v ≤ 500
  | 3 => v ≤ 1000
  | 4 => v ≤ 1000
  | 5 => v ≤ 100
  | 6 => v ≤ 3
  | 7 => v ≤ 3
  | 8 => v ≤ 7
  | 9 => 1 ≤ v && v ≤ 4
  | 10 => 1 ≤ v && v ≤ 15
  | 11 => v = 0 || v = 17 || v = 18
  | 12 => v ≤ 1
  | 13 => v ≤ 1000
  | _ => false

/-- The spare line a standby-line value names (R216). -/
def spareLineOf : Nat → Option SpareLine
  | 17 => some .line17
  | 18 => some .line18
  | _ => none

/-- The number a standby line is carried as (R216). -/
def spareLineNumber : Option SpareLine → Nat
  | some .line17 => 17
  | some .line18 => 18
  | none => 0

/-- Stores one STATION SET item (R216). -/
def StationConfig.store (c : StationConfig) (it : Item) : StationConfig :=
  match it.code with
  | 1 => { c with k := it.value }
  | 2 => { c with vMin := it.value }
  | 3 => { c with vMax := it.value }
  | 4 => { c with startOpening := it.value }
  | 5 => { c with sniffOpening := it.value }
  | 6 => { c with markA := Fin.ofNat 4 it.value }
  | 7 => { c with markB := Fin.ofNat 4 it.value }
  | 8 => { c with eventCode := it.value }
  | 9 => { c with recoveryCount := it.value }
  | 10 => { c with quarantineLimit := it.value }
  | 11 => { c with standbyLine := spareLineOf it.value }
  | 12 => { c with pinned := it.value = 1 }
  | 13 => { c with manualOpening := it.value }
  | _ => c

/-- The configuration a STATION SET results in, before the manual opening is clamped (R13, R14). -/
def StationConfig.carry (base : StationConfig) (items : List Item) : StationConfig :=
  items.foldl StationConfig.store base

/-- The manual opening as the nearer bound of [v_min, v_max] where it lies outside (R13). -/
def StationConfig.clampManual (c : StationConfig) : StationConfig :=
  { c with manualOpening := max c.vMin (min c.manualOpening c.vMax) }

/-- A configuration is complete (R3). -/
def StationConfig.complete (c : StationConfig) : Bool :=
  1 ≤ c.k && c.k ≤ 65535 && 20 ≤ c.vMin && c.vMin ≤ 500 && c.vMin ≤ c.vMax && c.vMax ≤ 1000
    && c.vMin ≤ c.startOpening && c.startOpening ≤ c.vMax && c.sniffOpening ≤ 100 && c.eventCode ≤ 7
    && 1 ≤ c.recoveryCount && c.recoveryCount ≤ 4 && 1 ≤ c.quarantineLimit && c.quarantineLimit ≤ 15
    && c.vMin ≤ c.manualOpening && c.manualOpening ≤ c.vMax

/-- The record word a STATION SET item is stored in (R1). -/
def stationItemWord : Nat → Nat
  | 1 => 0 | 2 => 1 | 3 => 1 | 4 => 2 | 13 => 2 | 5 => 3 | 11 => 3 | 12 => 3 | 6 => 4 | 7 => 4 | 8 => 4 | 9 => 5
  | 10 => 5
  | _ => 0

/-! ### Which words a set of items replaces whole or in part (R187) -/

/-- The codes among `all` that are stored in a word. -/
def codesInWord (word : Nat → Nat) (all : List Nat) (w : Nat) : List Nat := all.filter (fun c => word c = w)

/-- The words items are stored in. -/
def writtenWords (word : Nat → Nat) (items : List Item) : List Nat := ((codesOf items).map word).dedup

/-- The words items replace whole, which are not read first. -/
def replacedWords (word : Nat → Nat) (all : List Nat) (items : List Item) : List Nat :=
  (writtenWords word items).filter (fun w => carriesAll items (codesInWord word all w))

/-- The words items replace in part, which are read first. -/
def mergedWords (word : Nat → Nat) (all : List Nat) (items : List Item) : List Nat :=
  (writtenWords word items).filter (fun w => !carriesAll items (codesInWord word all w))

end Sys2Proof.Machine
end

