-- ==== Sys2Proof/Machine/Restarts.lean ====
section
/-! DEFINITION. What a restart and a loss of power leave (chapter 7, section 7.5, and each chapter's restart table). -/

namespace Sys2Proof.Machine

/-- A cold restart (R162): every word written with its default, all state at its cold value. The straps are read (R209). -/
def coldRestart (s : State) : State := State.cold s.pins s.pending

/-- A station's state after a warm restart (R9). -/
def warmState (w : StationWork) : StationState :=
  match w.state with
  | .unused => .unused
  | _ => if w.damaged then .faulted .record else .standby

/-- A station record after a warm restart: the working part rewritten, the damaged mark and the configuration kept (R9). -/
def Station.warm (r : Station) : Station :=
  { r with work := { StationWork.cold with state := warmState r.work, damaged := r.work.damaged } }

/-- The memory after a warm restart (R185): working words written afresh, pending write-backs dropped. The first scrub interval
has the length of a code. -/
def Memory.warm (m : Memory) (scrubCode : Nat) : Memory :=
  { allWorkWords.foldl Memory.rewrite m with
    writeBacks := [], scrubPointer := 0, scrubDue := scrubInterval scrubCode }

/-- The round timer after a warm restart (R147, R159). -/
def warmTimer (b : BankSettings) : Option Nat := if b.role = .slave then none else some b.balancePeriod

/-- A warm restart (R163) before the trip output is evaluated. -/
def warmRestartBare (s : State) : State :=
  { elapsed := 0
    conversionDue := 1000
    powered := true
    restartDue := none
    address := addressOf s.pins.straps
    pins := s.pins
    stations := s.stations.map Station.warm
    settings := s.settings
    measure := Measurement.cold
    sampler := Sampler.cold s.sampler.sweepEntries s.sampler.classes
    balancer := Balancer.cold
    drive := Drive.cold
    trip := TripUnit.cold
    link := Link.cold (s.settings.bank.role = .slave && s.pins.markActive)
    bank := BankControl.cold (warmTimer s.settings.bank)
    memory := s.memory.warm s.settings.bank.scrubCode
    events := EventUnit.cold
    control := PortState.cold
    monitor := PortState.cold
    pending := s.pending }

/-- The first scrub interval of a warm restart, with the length the scrub interval code gives (R193). -/
def beginScrub (s : State) : State :=
  { s with memory := { s.memory with scrubDue := scrubInterval s.settings.bank.scrubCode } }

/-- A warm restart (R163): the round timer, the link, the trip unit and the scrub start with their settings as they are read,
and the trip output is evaluated at the restart (R165, R169).
DEDUCED (log 44): the first scrub interval begins behind the read of word 407, so where that read finds damage the interval has
the length of the restored code 2. R189 lets a read complete with the word as its owner has rewritten it; R193 lets an interval
in progress end at its old length, and at a restart none is in progress. -/
def warmRestart (s : State) : State :=
  let bare := warmRestartBare s
  let evaluated := checked (fun _ => [403, 404, 405, 406, 407]) (fun a t => evaluateOutput a (beginScrub t)) bare
  judgeFound bare (tripIfDue checked evaluated)

/-- The restart that is asked for, where one is. -/
def restartAs : Option RestartKind → State → State
  | none, s => s
  | some .cold, s => coldRestart s
  | some .warm, s => warmRestart s

/-- Loss of power (R150): the outputs drop and all working state is lost; only the field levels go on (log 11). -/
def losePower (s : State) : State := { State.cold s.pins s.pending with powered := false }

end Sys2Proof.Machine
end

