-- ==== Sys2Proof/Machine/Requests.lean ====
section
/-! DEFINITION. Taking a request (R212, R213): by address, the order of the checks, the reply that is held, and a
broadcast. -/

namespace Sys2Proof.Machine

/-- What a request comes to: the state it leaves, its status, the reply contents behind the status byte, and the restart
it asks for; what its owner goes on to do, in pieces that make reads of their own (R187); and whether the trip function is
evaluated behind it (R168). -/
structure Answer where
  state : State
  status : Status
  contents : List Byte
  restart : Option RestartKind
  onward : State → State
  evaluates : Bool

/-- A refused request changes nothing (section 6.7). -/
def refuse (c : Status) (s : State) : Answer := ⟨s, c, [], none, id, false⟩

/-- An accepted query or TAKE EVENTS, with its contents. -/
def acceptWith (contents : List Byte) (s : State) : Answer := ⟨s, .ok, contents, none, id, false⟩

/-- An accepted request, answered OK with no contents. -/
def accept (s : State) : Answer := acceptWith [] s

/-- A request that may have changed a condition: the trip function is evaluated behind it (R168, log 13). -/
def Answer.evaluated (a : Answer) : Answer := { a with evaluates := true }

/-- What the owner of an accepted request goes on to do. -/
def Answer.andThen (a : Answer) (f : State → State) : Answer := { a with onward := f }

/-- The answer when all that follows it has been done, from the state `before` the request. -/
def Answer.settled (a : Answer) (before : State) : Answer :=
  let t := a.onward a.state
  { a with state := if a.evaluates || foundDamage before t then judge before t else t }

/-- A row of the catalogue (R215): the kind byte, whether it is a query, the body lengths it allows, the protected words it
looks at to know what to do (R187), and what its owner does. -/
structure RequestRow where
  kind : Byte
  query : Bool
  lengthOk : Nat → Bool
  reads : List Byte → State → List Nat
  act : Access → Port → List Byte → State → Answer

/-- What an owner does to the state as it answers. -/
def RequestRow.work (row : RequestRow) (p : Port) (body : List Byte) : Work := fun a s => (row.act a p body s).state

/-- What an owner answers from a state whose words it has read, with the words it stores written (R187). -/
def RequestRow.answer (row : RequestRow) (p : Port) (body : List Byte) (s : State) : Answer :=
  let a := row.act plain p body s
  { a with state := noteWrites (row.work p body) s a.state }

/-- What the owner answers, behind the reads of the words it looks at, before it begins and as it goes on (R187). Where they may
have found damage the trip function is evaluated too (R168): before a query is answered, behind any other request
(log 13). -/
def ownerAnswers (row : RequestRow) (p : Port) (body : List Byte) (s : State) : Answer :=
  let t := check (fun u => row.reads body u ++ usedWords (row.work p body) u) s
  if row.query then row.answer p body (judgeFound s t) else (row.answer p body t).settled s

/-- The checks of R213 from the second on, and the owner's part. -/
def answerTo (row : RequestRow) (r : Request) (s : State) : Answer :=
  if r.port = .monitor && !row.query then refuse .readOnly s
  else if !row.lengthOk r.body.length then refuse .badLength s
  else ownerAnswers row r.port r.body s

/-- The reply body of an answer (R213). -/
def Answer.body (a : Answer) : List Byte := a.status.code :: a.contents

/-- A request with the part's own address becomes the held request, with the reply formed for it (R212, R213). -/
def holdAnswer (p : Port) (kind : Byte) (a : Answer) : State :=
  setHeld p (some ⟨kind, a.body, false, a.restart⟩) a.state

/-- How a complete frame with a good check is taken (R212). -/
inductive Taking where
  /-- Ignored or discarded with no reply. -/
  | none
  /-- A broadcast: carried out, with no reply. -/
  | broadcast
  /-- It becomes the held request. -/
  | held
  deriving DecidableEq, Repr

/-- How a request frame with a kind below 80h is taken (R212). -/
def taking (r : Request) (s : State) : Taking :=
  if r.address = broadcast then .broadcast
  else if ownAddress s r.address && (s.port r.port).held.isNone then .held
  else .none

/-- A request of a row of the catalogue. A broadcast of a query has no effect (R213), and a broadcast RESTART takes effect at
the moment it is taken (R161). -/
def takeRequest (row : RequestRow) (r : Request) (s : State) : State :=
  let t := received r.port s
  match taking r t with
  | .none => t
  | .broadcast => if row.query then t else restartAs (answerTo row r t).restart (answerTo row r t).state
  | .held => holdAnswer r.port row.kind (answerTo row r t)

/-- A request command. -/
def performRequest (row : RequestRow) (r : Request) (s : State) : Result := perform (takeRequest row r) s

end Sys2Proof.Machine
end

