-- ==== Sys2Proof/Machine/Replies.lean ====
section
/-! DEFINITION. The contents of the replies behind the status byte (R216 to R219), and of the unsolicited frames (R220). -/

namespace Sys2Proof.Machine

/-! ### Pieces (R216) -/

def one (v : Nat) : List Byte := bytesOf 1 v
def two (v : Nat) : List Byte := bytesOf 2 v
def three (v : Nat) : List Byte := bytesOf 3 v
def four (v : Nat) : List Byte := bytesOf 4 v

/-- A yes-or-no field, a flag or a condition. -/
def flag (b : Bool) : List Byte := one b.toNat

/-- A list, preceded by its length. -/
def counted {α : Type} (f : α → List Byte) (l : List α) : List Byte := one l.length ++ l.flatMap f

/-- A part that may be absent: a presence byte, and its bytes, all zero where it is absent. -/
def optional {α : Type} (size : Nat) (f : α → List Byte) : Option α → List Byte
  | some a => one 1 ++ f a
  | none => one 0 ++ List.replicate size 0

/-- Bits of a byte, bit 0 first. -/
def bits (l : List Bool) : Nat := l.foldr (fun b n => b.toNat + 2 * n) 0

/-- A station number, or 0 for none. -/
def stationOr0 : Option StationIx → Nat
  | some i => stationNumber i
  | none => 0

/-! ### IDENT (R216) -/

def Port.code : Port → Nat
  | .control => 0
  | .monitor => 1

def identContents (p : Port) (s : State) : List Byte :=
  one Config.familyCode ++ two Config.partCode ++ one s.address ++ one (Port.code p)

/-! ### STATUS (R217) -/

def InputStatus.code : InputStatus → Nat
  | .notConverted => 0 | .fault => 1 | .zero => 2 | .good => 3 | .saturated => 4

def SamplerPhase.code : SamplerPhase → Nat
  | .stopped => 0 | .idle => 1 | .purging => 2 | .reading => 3 | .paused => 4

def TripLatch.code : TripLatch → Nat
  | .clear => 0 | .localTrip => 1 | .linkTrip => 2

def SampleSource.code : SampleSource → Nat
  | .demand _ => 1 | .reference => 2 | .sweep _ => 3

/-- Byte 6: the conditions. -/
def conditionBits (s : State) : Nat :=
  bits [suctionLow s, s.sampler.analyserFault, s.balancer.purityLow, s.balancer.o2High, s.balancer.shortfall,
    recordDamaged s, s.trip.output, s.bank.isolation]

/-- Byte 7. -/
def lineBits (s : State) : Nat :=
  bits [s.bank.roundTimer.isSome, attentionActive s, s.link.state = .lost, s.link.hold] + 16 * s.trip.latch.code

/-- The seconds to the round timer's next expiry. -/
def secondsToRound (s : State) : Nat :=
  match s.bank.roundTimer with
  | some e => e - bankClock s
  | none => 0

/-- Codes two to a byte, the earlier one in the high four bits. -/
def packPairs : List Nat → List Byte
  | a :: b :: rest => one (16 * a + b) ++ packPairs rest
  | [a] => one (16 * a)
  | [] => []

/-- Bytes 10 to 27. -/
def statusBytes (s : State) : List Byte := packPairs (s.measure.inputs.toList.map fun e => e.status.code)

/-- Bytes 30 to 37: the sample in flight. -/
def sampleBytes (s : State) : List Byte :=
  match s.sampler.inFlight with
  | some m =>
    one m.source.code ++ one (stationOr0 m.source.station?) ++ one m.line.val ++ one (16 * m.taken + m.readings)
      ++ four (m.start.getD 0)
  | none => List.replicate 8 0

/-- Byte 38. -/
def sampleBits (s : State) : Nat :=
  bits [(s.sampler.inFlight.bind Sample.start).isSome, s.sampler.lastReference.isSome,
    s.sampler.lastReference.any ReferenceResult.pass] + 16 * s.sampler.faultCount

/-- Bytes 39 to 45: the last reference result. -/
def referenceBytes (s : State) : List Byte :=
  match s.sampler.lastReference with
  | some r => two r.c ++ one r.o ++ four r.time
  | none => List.replicate 7 0

/-- Bytes 48 to 79: the motion queue. -/
def queueBytes (s : State) : List Byte :=
  let used := s.drive.queue.flatMap fun e => two (2048 * stationNumber e.station + e.target)
  used ++ List.replicate (32 - used.length) 0

def classCountCode : Nat → Nat
  | 2 => 1
  | 4 => 2
  | _ => 0

def statusContents (s : State) : List Byte :=
  one s.bank.mode.code ++ four (bankClock s) ++ one (conditionBits s) ++ one (lineBits s) ++ two (secondsToRound s)
    ++ statusBytes s ++ one ((inputValue 80 (suctionInput s)).getD 0) ++ one s.sampler.phase.code ++ sampleBytes s
    ++ one (sampleBits s) ++ referenceBytes s
    ++ one (16 * s.drive.motions.length + s.settings.bank.slotCount) ++ one s.drive.queue.length ++ queueBytes s
    ++ one (s.events.flags.toNat + 16 * s.settings.notice.mode.code + 64 * classCountCode s.settings.notice.classCount)
    ++ one s.events.queue.length ++ one s.events.overflow
    ++ one (s.events.notices.length + 16 * s.settings.cast.mask.toNat)
    ++ one s.events.backlog.length ++ one s.events.drops

/-! ### STATION QUERY (R218) -/

def MotionStatus.code : MotionStatus → Nat
  | .none => 0 | .queued => 1 | .running => 2 | .inching => 3 | .reversing => 4

/-- Byte 4. -/
def stationBits (r : Station) : Nat :=
  bits [r.work.fresh, r.work.damaged, r.work.restartMark, r.cfg.pinned, r.work.position.isSome,
    r.work.lastMoveDone.isSome, r.work.settleExpiry.isSome, r.work.quality.isSome]

/-- Bytes 5 to 19: the configuration. -/
def configBytes (c : StationConfig) : List Byte :=
  two c.k ++ two c.vMin ++ two c.vMax ++ two c.startOpening ++ two c.manualOpening ++ one c.sniffOpening
    ++ one (16 * c.markA.val + c.markB.val) ++ one (16 * c.eventCode + c.recoveryCount) ++ one c.quarantineLimit
    ++ one (spareLineNumber c.standbyLine)

/-- Bytes 35 to 48: the quality result. -/
def qualityBytes (r : Option QualityResult) : List Byte :=
  match r with
  | some q =>
    two q.c ++ one q.o ++ one (16 * q.area.number + q.readings) ++ flag q.overRange ++ one q.line.val ++ four q.start
      ++ four q.filed
  | none => List.replicate 14 0

/-- Bytes 49 to 57: the flow record. -/
def flowBytes (f : FlowRecord) : List Byte :=
  two f.q ++ two f.dp ++ one (bits [f.valid, f.saturated, f.clamped]) ++ four f.time

def stationContents (i : StationIx) (s : State) : List Byte :=
  let w := s.work i
  one (stationNumber i) ++ one w.state.code ++ one w.state.causeCode ++ one (stationBits (s.station i))
    ++ configBytes (s.cfg i) ++ one (lineInUse s i).val ++ two w.target ++ two (w.position.getD 0)
    ++ one (motionStatus s i).code ++ four (w.lastMoveDone.getD 0) ++ four (w.settleExpiry.getD 0)
    ++ one (16 * w.recoveryRun + w.quarantineCount) ++ qualityBytes w.quality ++ flowBytes w.flow

/-! ### BANK QUERY (R216, R120) -/

def RoundKind.code : RoundKind → Nat
  | .round => 0
  | .assessment => 1

def RoundOutcome.code : RoundOutcome → Nat
  | .noFlow => 0 | .incomplete => 1 | .held => 2 | .band => 3 | .deficit => 4 | .shortfall => 5 | .surplus => 6
  | .surplusNone => 7

/-- C and O, or C' and O': a part that may be absent (log 25). -/
def mixtureBytes : Option (Nat × Nat) → List Byte := optional 3 fun m => two m.1 ++ one m.2

def adjustmentBytes (a : Adjustment) : List Byte := one (stationNumber a.station) ++ two a.old ++ two a.new

/-- The last-round record behind its presence byte. -/
def roundBytes (r : RoundRecord) : List Byte :=
  four r.time ++ one r.kind.code ++ one r.outcome.code ++ one r.participants ++ one r.known ++ three r.knownFlow
    ++ three r.unknownFlow ++ mixtureBytes r.mixture ++ flag r.purityBreached ++ flag r.oxygenBreached
    ++ counted adjustmentBytes r.adjustments ++ mixtureBytes r.predicted

/-- The size of an absent record, sent as zero with its list empty (R216). -/
def absentRoundSize : Nat := 25

def bankContents (s : State) : List Byte :=
  bankCodes.flatMap (fun code => two (s.settings.bank.item code))
    ++ optional absentRoundSize roundBytes s.balancer.lastRound

/-! ### SWEEP QUERY (R81) -/

def LineClass.code : LineClass → Nat
  | .near => 0
  | .far => 1

def stationByte (i : StationIx) : List Byte := one (stationNumber i)

/-- The contents of SWEEP QUERY (R81, R216). The 19 classes and the 19 marks, whose number is fixed, have no count byte
(log 25). -/
def sweepContents (s : State) : List Byte :=
  let k := s.sampler
  counted stationByte k.sweepList ++ one k.pointer ++ one k.passCount ++ flag k.referenceDue
    ++ counted stationByte k.demand ++ k.classes.toList.flatMap (fun c => one c.code)
    ++ k.marks.toList.flatMap flag ++ optional 1 stationByte k.claim17 ++ optional 1 stationByte k.claim18

/-! ### TRIP QUERY (R184) -/

def TripOrigin.code : TripOrigin → Nat
  | .function => 0
  | .command => 1

def LinkState.code : LinkState → Nat
  | .inStep => 0
  | .lost => 1

def termConfigBytes (t : TripTerm) : List Byte := one t.source.code ++ flag t.invert

/-- A term's condition value and term value as they stand. -/
def termNowBytes (s : State) (t : TripTerm) : List Byte := flag (condition s t.source) ++ flag (termValue s t)

def termReadingBytes (t : TermReading) : List Byte :=
  one t.source.code ++ flag t.invert ++ flag t.condition ++ flag t.value

def tripRecordBytes (r : TripRecord) : List Byte :=
  four r.time ++ one r.origin.code ++ one r.latch.code ++ one r.function.code ++ one r.persistence
    ++ termReadingBytes r.termA ++ termReadingBytes r.termB ++ termReadingBytes r.termC

/-- The persistence timer: stopped, or its elapsed time in steps of 0.1 s. -/
def timerBytes (s : State) : List Byte := optional 2 (fun t => two ((s.elapsed - t) / 100)) s.trip.timer

/-- The trip line, with the time left of a timed pulse in steps of 0.1 s. DESIGN CHOICE: R216 sends a flag as 1 for true, and a
field of several named values coded in the order its rule lists them, and R165 lists asserted before released; the model sends
the line as a flag, 1 for asserted (log 25). -/
def tripLineBytes (s : State) : List Byte :=
  match s.trip.line with
  | .released => flag false ++ List.replicate 2 0
  | .pulse t => flag true ++ one 1 ++ one ((t - s.elapsed + 99) / 100)
  | .held => flag true ++ List.replicate 2 0

/-- The contents of TRIP QUERY (R184). DESIGN CHOICE: R216 gives a setting the units in which BANK SET or TRIP SET carries it, and
the fewest whole bytes to every other number: the model sends the persistence code and the hold lead in one byte each, and not
in the two bytes of an item. The link TRIP drive and the TRIP line as sensed are flags, 1 for asserted, like the trip line
(log 25). -/
def tripContents (s : State) : List Byte :=
  let c := s.settings.trip
  termConfigBytes c.termA ++ termConfigBytes c.termB ++ termConfigBytes c.termC ++ one c.function.code
    ++ one c.persistence ++ one c.pulseWidth.code
    ++ flag s.trip.output ++ termNowBytes s c.termA ++ termNowBytes s c.termB ++ termNowBytes s c.termC
    ++ timerBytes s ++ one s.trip.latch.code ++ optional 20 tripRecordBytes s.trip.record ++ tripLineBytes s
    ++ flag s.trip.linkDrive ++ flag (tripLineSensed s)
    ++ one s.settings.bank.role.code ++ one s.settings.bank.holdLead ++ one s.link.state.code ++ flag s.link.hold
    ++ optional 4 four s.link.lastMark

/-! ### INTEGRITY QUERY (R195) -/

/-- The contents of INTEGRITY QUERY (R195). DESIGN CHOICE: the scrub interval code, a setting, is sent in one byte, and not in the
two bytes of an item (log 25). -/
def integrityContents (s : State) : List Byte :=
  let m := s.memory
  two m.corrections ++ counted two m.damageList ++ one m.damageOverflow ++ flag m.damagedSetting
    ++ flag (recordDamaged s) ++ counted stationByte (allStations.filter fun i => (s.work i).damaged)
    ++ one s.settings.bank.scrubCode ++ two m.scrubPointer

/-! ### Event records (R219) -/

def EventKind.code : EventKind → Nat
  | .state => 1 | .quality => 2 | .adjusted => 3 | .exhausted => 4 | .analyserFault => 5 | .lineFault => 6
  | .substituted => 7 | .referenceFail => 8 | .stall => 9 | .timeout => 10 | .miss => 11 | .positionLine => 12
  | .mode => 13 | .trip => 14 | .roundShortfall => 15 | .roundIncomplete => 16 | .roundNoFlow => 17
  | .linkLost => 18 | .linkBack => 19 | .recordDamaged => 20 | .flowLine => 21

def Category.code : Category → Nat
  | .station => 0 | .sampling => 1 | .drive => 2 | .bank => 3

def edgeCode : Option Edge → Nat
  | none => 0
  | some .set => 1
  | some .clear => 2

def recordBytes (r : EventRecord) : List Byte :=
  one r.kind.code ++ one (16 * r.kind.category.code + edgeCode r.edge) ++ one r.station ++ four r.time
    ++ flag r.value.isSome ++ two (r.value.getD 0)

/-- The contents of TAKE EVENTS and PEEK EVENTS (R219): `taken` are the records returned, `left` how many stay. -/
def eventContents (taken : List EventRecord) (left overflow : Nat) : List Byte :=
  one taken.length ++ one left ++ one overflow ++ taken.flatMap recordBytes

/-! ### Unsolicited frames (R220) -/

def noticeBody (n : PendingNotice) (s : State) : List Byte := one n.class_ ++ one s.events.flags.toNat

def copyBody (c : EventCopy) : List Byte := recordBytes c.record ++ flag c.queued

end Sys2Proof.Machine
end

