-- ==== Sys2Proof/Machine/StationRequests.lean ====
section
/-! DEFINITION. STATION SET and the station commands (chapter 1, sections 1.7 and 1.8, and R63). -/

namespace Sys2Proof.Machine

/-! ### STATION SET (R13 to R16) -/

/-- The recovery run under a new recovery count (R15). -/
def runUnder (st : StationState) (newCount run : Nat) : Nat :=
  if st = .quarantined ∧ newCount ≤ run then newCount - 1 else run

/-- Whether the resulting configuration is refused (R13). -/
def configRefused (full unused : Bool) (c : StationConfig) : Bool :=
  c.vMax < c.vMin || c.startOpening < c.vMin || c.vMax < c.startOpening || (c.k = 0 && (unused || full))

/-- The reply status of an accepted STATION SET (R13). -/
def setStatus (result : StationConfig) : Status :=
  if result.clampManual.manualOpening = result.manualOpening then .ok else .clamped

/-- The words a STATION SET looks at: the working part, which holds the state; on an assigned station the openings its items are
checked against (R13), and where it is accepted the words its items merge into; less those it replaces whole. On an UNUSED
station it replaces every configuration word (R14). -/
def stationSetReads (body : List Byte) (s : State) : List Nat :=
  let items := itemsOf (body.drop 1)
  match bodyStation body with
  | none => []
  | some i =>
    if !itemsOk stationItemOk items then []
    else if !(s.work i).state.assigned || items.isEmpty then workWords i
    else
      let refused := configRefused (carriesAll items stationCodes) false ((s.cfg i).carry items)
      let words := [1, 2] ++ if refused then [] else mergedWords stationItemWord stationCodes items
      workWords i ++
        (words.filter (fun w => !(replacedWords stationItemWord stationCodes items).contains w)).map (recordBase i + ·)

/-- The working fields that the table keeps, which an assignment and an UNASSIGN give their cold values (R9). -/
def workFields : List WorkField := allWorkFields.filter (fun f => f ≠ .sampleLine && f ≠ .motionStatus)

/-- STATION SET assigns an UNUSED station (R14). -/
def assignStation (a : Access) (i : StationIx) (c : StationConfig) (s : State) : State :=
  enterState a i .standby workFields (fun _ => StationWork.cold) (rewriteWords (configWords i) (s.setCfg i c))

/-- STATION SET stores on an assigned station, and the table brings the working part into line (R15, R16). -/
def reconfigure (a : Access) (i : StationIx) (c : StationConfig) (full : Bool) (words : List Nat) (s : State) : State :=
  let stored := rewriteWords (words.map (recordBase i + ·)) (s.setCfg i c)
  let w := stored.work i
  let run := runUnder w.state c.recoveryCount w.recoveryRun
  let fields := (if run = w.recoveryRun then [] else [WorkField.recoveryRun]) ++
    if w.damaged && full then [WorkField.damaged] else []
  applyTarget a i w.target (putWork a i fields { w with recoveryRun := run, damaged := w.damaged && !full } stored)

/-- STATION SET of one station with well-formed items (R13 to R16). -/
def stationSet (a : Access) (i : StationIx) (items : List Item) (s : State) : Answer :=
  let unused := !(s.work i).state.assigned
  let full := carriesAll items stationCodes
  let result := (if unused then StationConfig.default else s.cfg i).carry items
  if items.isEmpty && !unused then accept s
  else if configRefused full unused result then refuse .badValue s
  else
    let after :=
      if unused then assignStation a i result.clampManual s
      else reconfigure a i result.clampManual full
        (writtenWords stationItemWord items ++ (if setStatus result = .ok then [] else [2])) s
    { accept after with status := setStatus result, evaluates := true }

def stationSetRow : RequestRow :=
  { kind := 0x10, query := false, lengthOk := stationItems, reads := stationSetReads
    act := fun a _ body s =>
      match bodyStation body with
      | some i =>
        if itemsOk stationItemOk (itemsOf (body.drop 1)) then stationSet a i (itemsOf (body.drop 1)) s
        else refuse .badValue s
      | none => refuse .badValue s }

/-! ### Station commands (R18) -/

/-- A row of STATION COMMAND (R18): its operation's code, the words it looks at for a station, and what it does. A body that
names another operation is refused here with BAD_VALUE (log 3). -/
def commandRow (operation : Nat) (reads : StationIx → State → List Nat) (act : Access → StationIx → State → Answer) :
    RequestRow :=
  { kind := 0x11, query := false, lengthOk := exactly 2
    reads := fun body s =>
      if bodyOperation body = operation then ((bodyStation body).map fun i => reads i s).getD [] else []
    act := fun a _ body s =>
      match bodyStation body with
      | some i => if bodyOperation body = operation then act a i s else refuse .badValue s
      | none => refuse .badValue s }

/-- What START looks at: in TRIPPED it is refused by the bank mode alone. -/
def startReads (i : StationIx) (s : State) : List Nat := if s.bank.mode = .tripped then [] else workWords i

/-- A station is started at its start opening, which record word 2 holds, or its manual opening (R19, R29). -/
def startStation (a : Access) (i : StationIx) (s : State) : State :=
  applyTarget a i (s.cfg i).startOpening
    (enterState a i .producing [.quarantineCount, .recoveryRun, .restartMark]
      (fun w => { w with quarantineCount := 0, recoveryRun := 0, restartMark := false }) (a.look [recordBase i + 2] s))

/-- START (R19). -/
def startCommand (a : Access) (i : StationIx) (s : State) : Answer :=
  if s.bank.mode = .tripped then refuse .wrongMode s
  else if (s.work i).state = .standby then accept (startStation a i s)
  else refuse .wrongState s

/-- STOP of a station (R20). -/
def stopStation (a : Access) (i : StationIx) (s : State) : State :=
  applyTarget a i 0 (enterState a i .standby [.recoveryRun] (fun w => { w with recoveryRun := 0 }) s)

def stopCommand (a : Access) (i : StationIx) (s : State) : Answer :=
  if (s.work i).state.active then accept (stopStation a i s) else refuse .wrongState s

/-- The fields ISOLATE writes beside the state and the fault cause within it (R21). -/
def StationWork.isolated (w : StationWork) : StationWork := { w with restartMark := false, recoveryRun := 0 }

/-- ISOLATE (R21). A station that is ISOLATED already makes no change of state, and so raises no STATE event (R35). -/
def isolateStation (a : Access) (i : StationIx) (s : State) : State :=
  applyTarget a i 0
    (if (s.work i).state = .isolated then putWork a i faultFields (s.work i).isolated s
     else enterState a i .isolated faultFields StationWork.isolated s)

def isolateCommand (a : Access) (i : StationIx) (s : State) : Answer :=
  if (s.work i).state.assigned && !(s.work i).damaged then accept (isolateStation a i s) else refuse .wrongState s

/-- RELEASE (R22): no move request is passed. -/
def releaseCommand (a : Access) (i : StationIx) (s : State) : Answer :=
  if (s.work i).state = .isolated then accept (enterState a i .standby [] id s) else refuse .wrongState s

/-- FAULTED, whatever the cause. -/
def StationState.isFaulted : StationState → Bool
  | .faulted _ => true
  | _ => false

/-- CLEAR FAULT accepted (R23): a move request to 0 is passed though the target is 0 already. -/
def clearFault (a : Access) (i : StationIx) (s : State) : State :=
  moveRequest a i 0 (enterState a i .standby [.fresh, .settleExpiry] (fun w => { w with fresh := false, settleExpiry := none }) s)

/-- CLEAR FAULT (R23). -/
def clearFaultCommand (a : Access) (i : StationIx) (s : State) : Answer :=
  if !(s.work i).state.isFaulted || (s.work i).damaged then refuse .wrongState s
  else if (s.work i).position.isNone then refuse .conditionPresent s
  else accept (clearFault a i s)

/-- UNASSIGN accepted (R24). -/
def unassign (a : Access) (i : StationIx) (s : State) : State :=
  enterState a i .unused (workFields.filter (· ≠ .position)) (fun w => { StationWork.cold with position := w.position })
    (rewriteWords (configWords i) (s.setCfg i StationConfig.default))

def unassignCommand (a : Access) (i : StationIx) (s : State) : Answer :=
  if (s.work i).state = .standby then accept (unassign a i s) else refuse .wrongState s

/-- The pinned field changes (R17): its word is rewritten, and the clamp is applied again. -/
def setPinned (a : Access) (i : StationIx) (v : Bool) (s : State) : State :=
  applyTarget a i (s.work i).target (rewriteWords [recordBase i + 3] (s.setCfg i { s.cfg i with pinned := v }))

/-- PIN and UNPIN (R17). -/
def pinCommand (v : Bool) (a : Access) (i : StationIx) (s : State) : Answer :=
  if (s.work i).state.assigned then (if (s.cfg i).pinned = v then accept s else accept (setPinned a i v s))
  else refuse .wrongState s

/-- SAMPLE NOW (R63). -/
def sampleNowCommand (a : Access) (i : StationIx) (s : State) : Answer :=
  if !sampleable s i then refuse .wrongState s
  else if s.sampler.demand.contains i then accept s
  else if Config.demandCapacity ≤ s.sampler.demand.length then refuse .queueFull s
  else accept (addDemand a i s)

/-- What every other station command looks at: the working part, which holds the state. -/
def stateReads (i : StationIx) (_ : State) : List Nat := workWords i

/-- PIN and UNPIN compare and write one field of record word 3 (R17). -/
def pinReads (i : StationIx) (s : State) : List Nat :=
  workWords i ++ if (s.work i).state.assigned then [recordBase i + 3] else []

def startRow : RequestRow := commandRow 1 startReads startCommand
def stopRow : RequestRow := commandRow 2 stateReads stopCommand
def isolateRow : RequestRow := commandRow 3 stateReads isolateCommand
def releaseRow : RequestRow := commandRow 4 stateReads releaseCommand
def clearFaultRow : RequestRow := commandRow 5 stateReads clearFaultCommand
def unassignRow : RequestRow := commandRow 6 stateReads unassignCommand
def pinRow : RequestRow := commandRow 7 pinReads (pinCommand true)
def unpinRow : RequestRow := commandRow 8 pinReads (pinCommand false)
def sampleNowRow : RequestRow := commandRow 9 stateReads sampleNowCommand

/-- STATION SET (R13 to R16). -/
def execStationSet (r : Request) (s : State) : Result := performRequest stationSetRow r s

/-- START (R19). -/
def execStart (r : Request) (s : State) : Result := performRequest startRow r s

/-- STOP as a station command (R20). -/
def execStationStop (r : Request) (s : State) : Result := performRequest stopRow r s

/-- ISOLATE (R21). -/
def execIsolate (r : Request) (s : State) : Result := performRequest isolateRow r s

/-- RELEASE (R22). -/
def execRelease (r : Request) (s : State) : Result := performRequest releaseRow r s

/-- CLEAR FAULT (R23). -/
def execClearFault (r : Request) (s : State) : Result := performRequest clearFaultRow r s

/-- UNASSIGN (R24). -/
def execUnassign (r : Request) (s : State) : Result := performRequest unassignRow r s

/-- PIN (R17). -/
def execPin (r : Request) (s : State) : Result := performRequest pinRow r s

/-- UNPIN (R17). -/
def execUnpin (r : Request) (s : State) : Result := performRequest unpinRow r s

/-- SAMPLE NOW (R63). -/
def execSampleNow (r : Request) (s : State) : Result := performRequest sampleNowRow r s

end Sys2Proof.Machine
end

