-- ==== Sys2Proof/Machine/BankRequests.lean ====
section
/-! DEFINITION. The bank's requests: BANK SET (every settings chapter), TRIP SET (R175) and the MODE operations (R151). -/

namespace Sys2Proof.Machine

/-! ### BANK SET (R97, R145, R160, R177, R216) -/

/-- The settings a BANK SET results in. -/
def BankSettings.carry (b : BankSettings) (items : List Item) : BankSettings :=
  items.foldl (fun c it => c.store it.code it.value) b

/-- A role that differs from the stored one, carried outside IDLE (R177). -/
def roleRefused (items : List Item) (s : State) : Bool :=
  (s.settings.bank.carry items).role ≠ s.settings.bank.role && s.bank.mode ≠ .idle

/-- The words of the settings that each cross check a BANK SET calls for compares (R97, R145). -/
def crossWords (items : List Item) : List Nat :=
  (if carriesSome items [1, 5] then [384, 388] else []) ++ (if carriesSome items [3, 6] then [386, 389] else [])
    ++ (if carriesSome items [3, 4] then [386, 387] else []) ++ (if carriesSome items [25, 26] then [400] else [])

/-- The words a BANK SET looks at (R187): the other halves of its cross checks, the role it compares, and where it is accepted
the words it merges its items into. A word that it replaces whole is read for the role alone. -/
def bankSetReads (items : List Item) (s : State) : List Nat :=
  let replaced := replacedWords bankWord bankCodes items
  let crossed := (crossWords items).filter (fun w => !replaced.contains w)
  if !itemsOk bankItemOk items then []
  else if !bankCrossOk (codesOf items) (s.settings.bank.carry items) then crossed
  else
    crossed ++ (if carries items 31 then [406] else []) ++
      (if roleRefused items s then [] else mergedWords bankWord bankCodes items)

/-- An accepted BANK SET stores every setting it carries. -/
def storeBank (items : List Item) (s : State) : State :=
  rewriteWords (writtenWords bankWord items)
    { s with settings := { s.settings with bank := s.settings.bank.carry items } }

/-- Each carried item takes its effect, in the order of the item codes (log 22). `old` are the settings before the request. -/
def followBank (items : List Item) (old : BankSettings) (s : State) : State :=
  (bankCodes.filter (carries items)).foldl (followItem checked old) s

/-- BANK SET with well-formed items. SUCTION_LOW is read afresh behind it (R50). -/
def bankSet (items : List Item) (s : State) : Answer :=
  if !bankCrossOk (codesOf items) (s.settings.bank.carry items) then refuse .badValue s
  else if roleRefused items s then refuse .wrongMode s
  else if items.isEmpty then accept s
  else ((accept (storeBank items s)).andThen (followBank items s.settings.bank)).evaluated

def bankSetRow : RequestRow :=
  { kind := 0x16, query := false, lengthOk := wholeItems
    reads := fun body s => bankSetReads (itemsOf body) s
    act := fun _ _ body s =>
      if itemsOk bankItemOk (itemsOf body) then bankSet (itemsOf body) s else refuse .badValue s }

/-! ### TRIP SET (R175) -/

def tripCodes : List Nat := (List.range 9).map (· + 1)

def TripSettings.carry (t : TripSettings) (items : List Item) : TripSettings :=
  items.foldl (fun c it => c.store it.code it.value) t

/-- An accepted TRIP SET stores every field it carries. -/
def storeTrip (items : List Item) (s : State) : State :=
  rewriteWords (writtenWords tripWord items)
    { s with settings := { s.settings with trip := s.settings.trip.carry items } }

/-- The timer is stopped and the output evaluated afresh, which reads both trip words (R175). -/
def evaluateAfresh (s : State) : State := evaluateTrip checked (fun _ => [404, 405]) (restartPersistence s)

/-- TRIP SET with well-formed items (R175): one that carries the pulse width alone evaluates nothing. -/
def tripSet (items : List Item) (s : State) : Answer :=
  if items.any (fun it => it.code ≠ 9) then (accept (storeTrip items s)).andThen evaluateAfresh
  else accept (storeTrip items s)

/-- The words a TRIP SET looks at: those it merges its items into. -/
def tripSetReads (items : List Item) : List Nat :=
  if itemsOk tripItemOk items then mergedWords tripWord tripCodes items else []

def tripSetRow : RequestRow :=
  { kind := 0x17, query := false, lengthOk := wholeItems
    reads := fun body _ => tripSetReads (itemsOf body)
    act := fun _ _ body s =>
      if itemsOk tripItemOk (itemsOf body) then tripSet (itemsOf body) s else refuse .badValue s }

/-! ### MODE (R151 to R156) -/

/-- A row of MODE (R151): its operation's code and what it does. The bank mode and the function output alone decide what is done,
so a MODE request looks at no word before it begins. A body that names another operation is refused here with
BAD_VALUE (log 3). -/
def modeRow (operation : Nat) (act : State → Answer) : RequestRow :=
  { kind := 0x18, query := false, lengthOk := exactly 1, reads := fun _ _ => []
    act := fun _ _ body s => if firstByte body = operation then act s else refuse .badValue s }

/-! An operation that changes the mode does so first, and raises the MODE event; the blocks that act on the change follow, each
behind reads of its own, so that what those find is reported behind the MODE event (R157). -/

/-- What a RUN in IDLE hands on: the drive's order, then the sampler (R152). -/
def handRun (run : Reader) (s : State) : State := run noWords startSampler (run noWords runOrder s)

/-- RUN (R151, R152). -/
def runRequest (s : State) : Answer :=
  match s.bank.mode with
  | .idle => (accept (setMode .running s)).andThen (handRun checked)
  | .running => accept s
  | .tripped => refuse .wrongMode s

/-- What a STOP hands on in RUNNING, and last in TRIPPED: the drive's order, then the sampler (R153, R156). -/
def handStop (run : Reader) (s : State) : State := stopSampler (run noWords stopOrder s)

/-- The restart mark of a station is cleared (R29). -/
def clearRestartMark (i : StationIx) (a : Access) (s : State) : State :=
  putWork a i [.restartMark] { s.work i with restartMark := false } s

/-- Every restart mark is cleared (R29). -/
def clearRestartMarks (run : Reader) (s : State) : State := forStations (fun i t => run noWords (clearRestartMark i) t) s

/-- STOP as a MODE operation (R151). A bank that leaves TRIPPED releases its link TRIP drive, which may change LINK_TRIP
(R174). -/
def modeStopRequest (s : State) : Answer :=
  match s.bank.mode with
  | .idle => accept s
  | .running => (accept (setMode .idle s)).andThen (handStop checked)
  | .tripped =>
    if s.trip.output then refuse .conditionPresent s
    else ((accept (leaveTripped (setMode .idle s))).andThen
      fun t => handStop checked (clearRestartMarks checked t)).evaluated

/-- A marked STANDBY station is started (R29). -/
def restartMarked (i : StationIx) (a : Access) (s : State) : State :=
  let s := a.look (workWords i) s
  if (s.work i).state = .standby && (s.work i).restartMark then startStation a i s else s

/-- What a RESUME hands on (R155): the marked stations are started in ascending number, which is the order of their moves in the
queue (log 42). -/
def handResume (run : Reader) (s : State) : State := forStations (fun i t => run noWords (restartMarked i) t) s

/-- RESUME (R151, R155, R174). -/
def resumeRequest (s : State) : Answer :=
  match s.bank.mode with
  | .idle => refuse .wrongMode s
  | .running => refuse .wrongMode s
  | .tripped =>
    if s.trip.output then refuse .conditionPresent s
    else ((accept (leaveTripped (setMode .running s))).andThen (handResume checked)).evaluated

/-- The trip of a TRIP NOW (R170), behind the reads of the words that its record and its line take. -/
def commandTrip (run : Reader) (s : State) : State := tripAndRefresh run .command (run (fun _ => [404, 405]) nothing s)

/-- TRIP NOW (R151, R170). -/
def tripNowRequest (s : State) : Answer :=
  if s.bank.mode = .tripped then refuse .wrongMode s else (accept s).andThen (commandTrip checked)

def runRow : RequestRow := modeRow 1 runRequest
def modeStopRow : RequestRow := modeRow 2 modeStopRequest
def resumeRow : RequestRow := modeRow 3 resumeRequest
def tripNowRow : RequestRow := modeRow 4 tripNowRequest

/-- BANK SET. -/
def execBankSet (r : Request) (s : State) : Result := performRequest bankSetRow r s

/-- TRIP SET (R175). -/
def execTripSet (r : Request) (s : State) : Result := performRequest tripSetRow r s

/-- RUN (R152). -/
def execRun (r : Request) (s : State) : Result := performRequest runRow r s

/-- STOP as a MODE operation (R153, R156). -/
def execModeStop (r : Request) (s : State) : Result := performRequest modeStopRow r s

/-- RESUME (R155). -/
def execResume (r : Request) (s : State) : Result := performRequest resumeRow r s

/-- TRIP NOW (R170). -/
def execTripNow (r : Request) (s : State) : Result := performRequest tripNowRow r s

end Sys2Proof.Machine
end

