-- ==== Sys2Proof/Machine/Queries.lean ====
section
/-! DEFINITION. The queries: IDENT, STATUS, STATION QUERY, BANK QUERY, SWEEP QUERY, TRIP QUERY, INTEGRITY QUERY and PEEK
EVENTS. A query changes nothing but its port and what its checked reads find (R187, R213). -/

namespace Sys2Proof.Machine

/-- A query of an empty body whose contents are read from the state. -/
def queryRow (kind : Byte) (reads : List Nat) (contents : Port → State → List Byte) : RequestRow :=
  { kind := kind, query := true, lengthOk := exactly 0, reads := fun _ _ => reads
    act := fun _ p _ s => acceptWith (contents p s) s }

def identRow : RequestRow := queryRow 0x01 [] identContents

/-- The words STATUS reads: slot count, notification and cast settings, suction limit. -/
def statusRow : RequestRow := queryRow 0x02 [394, 398, 408, 409] fun _ => statusContents

/-- The stored settings BANK QUERY returns. -/
def bankRow : RequestRow := queryRow 0x04 ((List.range 20).map (384 + ·) ++ [406, 407]) fun _ => bankContents

def sweepRow : RequestRow := queryRow 0x05 ((List.range 9).map (448 + ·)) fun _ => sweepContents

def tripRow : RequestRow := queryRow 0x06 [404, 405, 406] fun _ => tripContents

/-- The scrub interval code, and the stations' damaged marks. -/
def integrityRow : RequestRow := queryRow 0x07 (407 :: allWorkWords) fun _ => integrityContents

/-- STATION QUERY (R218). -/
def stationRow : RequestRow :=
  { kind := 0x03, query := true, lengthOk := exactly 1
    reads := fun body _ => ((bodyStation body).map recordReads).getD []
    act := fun _ _ body s =>
      match bodyStation body with
      | some i => acceptWith (stationContents i s) s
      | none => refuse .badValue s }

/-- A count n of TAKE EVENTS and PEEK EVENTS lies in 1..8 (R199). -/
def countOk (n : Nat) : Bool := 1 ≤ n && n ≤ 8

/-- PEEK EVENTS (R199): it removes nothing, so the whole queue is left. -/
def peekRow : RequestRow :=
  { kind := 0x08, query := true, lengthOk := exactly 1, reads := fun _ _ => []
    act := fun _ _ body s =>
      let n := firstByte body
      if countOk n then
        acceptWith (eventContents (s.events.queue.take n) s.events.queue.length s.events.overflow) s
      else refuse .badValue s }

/-- IDENT (R216). -/
def execIdent (r : Request) (s : State) : Result := performRequest identRow r s

/-- STATUS (R217). -/
def execStatus (r : Request) (s : State) : Result := performRequest statusRow r s

/-- STATION QUERY (R1, R218). -/
def execStationQuery (r : Request) (s : State) : Result := performRequest stationRow r s

/-- BANK QUERY (R216, R120). -/
def execBankQuery (r : Request) (s : State) : Result := performRequest bankRow r s

/-- SWEEP QUERY (R81). -/
def execSweepQuery (r : Request) (s : State) : Result := performRequest sweepRow r s

/-- TRIP QUERY (R184). -/
def execTripQuery (r : Request) (s : State) : Result := performRequest tripRow r s

/-- INTEGRITY QUERY (R195). -/
def execIntegrityQuery (r : Request) (s : State) : Result := performRequest integrityRow r s

/-- PEEK EVENTS (R199). -/
def execPeekEvents (r : Request) (s : State) : Result := performRequest peekRow r s

end Sys2Proof.Machine
end

