-- ==== Sys2Proof/Machine/EventRequests.lean ====
section
/-! DEFINITION. The event unit's and the memory's requests: TAKE EVENTS, NOTICE SET, CLEAR NOTICE, CAST SET (chapter 10) and
INTEGRITY CLEAR (R194). -/

namespace Sys2Proof.Machine

/-- TAKE EVENTS (R199): the oldest records leave the queue with the reply. -/
def takeEvents (n : Nat) (s : State) : Answer :=
  acceptWith (eventContents (s.events.queue.take n) (s.events.queue.drop n).length s.events.overflow)
    { s with events := { s.events with queue := s.events.queue.drop n } }

def takeEventsRow : RequestRow :=
  { kind := 0x19, query := false, lengthOk := exactly 1, reads := fun _ _ => []
    act := fun _ _ body s => if countOk (firstByte body) then takeEvents (firstByte body) s else refuse .badValue s }

/-! ### NOTICE SET (R201 to R204) -/

def NoticeSettings.carry (n : NoticeSettings) (items : List Item) : NoticeSettings :=
  items.foldl (fun c it => c.store it.code it.value) n

/-- An accepted NOTICE SET stores its fields, and the line and the notices follow (R201). -/
def storeNotice (items : List Item) (s : State) : State :=
  let new := s.settings.notice.carry items
  rewriteWords (if items.isEmpty then [] else [408])
    { s with
      settings := { s.settings with notice := new }
      events := s.events.follow s.settings.notice new }

/-- The event unit compares the mode, the mask and the blink option before a NOTICE SET with those behind it (R202 to R204), so
word 408 is read even where the request replaces it whole (log 7). -/
def noticeSetReads (items : List Item) : List Nat := if itemsOk noticeItemOk items && !items.isEmpty then [408] else []

def noticeSetRow : RequestRow :=
  { kind := 0x1A, query := false, lengthOk := wholeItems
    reads := fun body _ => noticeSetReads (itemsOf body)
    act := fun _ _ body s =>
      if itemsOk noticeItemOk (itemsOf body) then accept (storeNotice (itemsOf body) s) else refuse .badValue s }

/-! ### CLEAR NOTICE (R200) -/

/-- The flags named are cleared (R200). The attention line and the notices follow by the settings of word 408; an empty mask
changes nothing, and so reads nothing. -/
def clearNotice (mask : Nat) (s : State) : State :=
  { s with events := s.events.clearFlags s.elapsed s.settings.notice (CategorySet.ofNat mask) }

def clearNoticeRow : RequestRow :=
  { kind := 0x1B, query := false, lengthOk := exactly 1
    reads := fun body _ => if 1 ≤ firstByte body ∧ firstByte body ≤ 15 then [408] else []
    act := fun _ _ body s => if firstByte body ≤ 15 then accept (clearNotice (firstByte body) s) else refuse .badValue s }

/-! ### CAST SET (R205) -/

def castCodes : List Nat := (List.range 5).map (· + 1)

def CastSettings.carry (k : CastSettings) (items : List Item) : CastSettings :=
  items.foldl (fun c it => c.store it.code it.value) k

/-- An accepted CAST SET stores its fields and zeroes the drop count (R205). -/
def storeCast (items : List Item) (s : State) : State :=
  rewriteWords (if items.isEmpty then [] else [409])
    { s with
      settings := { s.settings with cast := s.settings.cast.carry items }
      events := { s.events with drops := 0 } }

def castSetRow : RequestRow :=
  { kind := 0x1C, query := false, lengthOk := wholeItems
    reads := fun body _ =>
      if itemsOk castItemOk (itemsOf body) then mergedWords (fun _ => 409) castCodes (itemsOf body) else []
    act := fun _ _ body s =>
      if itemsOk castItemOk (itemsOf body) then accept (storeCast (itemsOf body) s) else refuse .badValue s }

/-! ### INTEGRITY CLEAR (R194) -/

/-- The damage list, the two counts and the flag are cleared (R194). -/
def integrityClear (s : State) : State :=
  { s with memory := { s.memory with corrections := 0, damageList := [], damageOverflow := 0, damagedSetting := false } }

/-- RECORD_DAMAGED is evaluated again on the stations' damaged marks, which reads them (R192, R194). -/
def readMarks (s : State) : State := checked (fun _ => allWorkWords) nothing s

/-- INTEGRITY CLEAR (R194) clears first and evaluates then: what that evaluation finds stands in the record. -/
def integrityClearRow : RequestRow :=
  { kind := 0x1D, query := false, lengthOk := exactly 0, reads := fun _ _ => []
    act := fun _ _ _ s => ((accept (integrityClear s)).andThen readMarks).evaluated }

/-- TAKE EVENTS (R199). -/
def execTakeEvents (r : Request) (s : State) : Result := performRequest takeEventsRow r s

/-- NOTICE SET (R201). -/
def execNoticeSet (r : Request) (s : State) : Result := performRequest noticeSetRow r s

/-- CLEAR NOTICE (R200). -/
def execClearNotice (r : Request) (s : State) : Result := performRequest clearNoticeRow r s

/-- CAST SET (R205). -/
def execCastSet (r : Request) (s : State) : Result := performRequest castSetRow r s

/-- INTEGRITY CLEAR (R194). -/
def execIntegrityClear (r : Request) (s : State) : Result := performRequest integrityClearRow r s

end Sys2Proof.Machine
end

