-- ==== Sys2Proof/Machine/Inputs.lean ====
section
/-! DEFINITION. What comes from the field: the conversion (R36), the contacts (R166), the shared TRIP line (R167) and the MARK
line (R179). -/

namespace Sys2Proof.Machine

/-- The instant of the next conversion: a whole second not yet passed (R36, log 1). -/
def conversionInstant (s : State) : Nat := max s.conversionDue ((s.elapsed + 999) / 1000 * 1000)

/-- A conversion of all 35 inputs (R36, R40), and the evaluation behind it (R50, R168). -/
def runConversion (codes : Vector Code 35) (s : State) : State :=
  let t := passUntil (conversionInstant s) s
  judge s (convert checked codes { t with conversionDue := conversionInstant s + 1000 })

/-- CONVERSION (R36). -/
def execConversion (codes : Vector Code 35) (s : State) : Result := perform (runConversion codes) s

/-- A field level changes; a powered part evaluates the trip function (R168). Without power the level changes alone
(log 11). -/
def fieldChange (pins : Pins) (s : State) : Result := perform (judge s) { s with pins := pins }

/-- PUMP_RUN_CONTACT (R166). -/
def execPumpRunContact (open_ : Bool) (s : State) : Result := fieldChange { s.pins with pumpOpen := open_ } s

/-- ARRESTOR_CONTACT (R166). -/
def execArrestorContact (closed : Bool) (s : State) : Result := fieldChange { s.pins with arrestorClosed := closed } s

/-- TRIP_LINE_SENSED (R167, log 12). -/
def execTripLineSensed (others : Bool) (s : State) : Result := fieldChange { s.pins with tripLineOthers := others } s

/-- MARK_RISE (R179): only a line that was inactive has a rising edge. -/
def execMarkRise (s : State) : Result :=
  if s.pins.markActive then .next s
  else if s.powered then perform (carryOut (fun _ => [406]) (fun _ => markRises)) s
  else .next { s with pins := { s.pins with markActive := true } }

/-- A falling edge as the role that is read gives it (R179, R182): the round event of a SLAVE's hold, taken by the bank mode
at that moment (R100), with the evaluation behind it (R168); or any other edge. -/
def fallOfMark (s : State) : State :=
  if fallIsRound s then
    let t := check (fun _ => [406]) s
    judge s (if fallIsRound t then takeRound checked (senseMark false t) else markFalls t)
  else carryOut (fun _ => [406]) (fun _ => markFalls) s

/-- MARK_FALL (R179, R182): only a line that was active has a falling edge. -/
def execMarkFall (s : State) : Result :=
  if !s.pins.markActive then .next s
  else if s.powered then perform fallOfMark s
  else .next { s with pins := { s.pins with markActive := false } }

end Sys2Proof.Machine
end

