-- ==== Sys2Proof/Machine/Lines.lean ====
section
/-! DEFINITION. Frames that are not taken (R211, R212), and the frames the part sends (R213, R214, R203, R207, R220). -/

namespace Sys2Proof.Machine

/-! ### Frames that are not taken -/

/-- A silence of more than 20 ms inside a frame (R211). -/
def execFrameSilenceTimeout (p : Port) (bytes : List Byte) (s : State) : Result :=
  perform (fun t =>
    let u := receive p bytes t
    u.setPort p { u.port p with receiver := (u.port p).receiver.silence }) s

/-- A complete frame whose check differs is discarded with no reply (R211). -/
def execFrameCheckFail (p : Port) (bytes : List Byte) (s : State) : Result := perform (receive p bytes) s

/-- A length above 120 discards the frame (R211). -/
def execFrameLengthDiscard (p : Port) (address kind length : Byte) (s : State) : Result :=
  perform (receive p [leadByte, address, kind, length]) s

/-- A complete frame with a good check that is not taken is ignored or discarded with no reply (R212). -/
def execFrameIgnored (p : Port) (address kind : Byte) (body : List Byte) (s : State) : Result :=
  perform (receive p (frameBytes address kind body)) s

/-! ### Frames sent -/

/-- A reply that is due begins once the transmitter is free (R213, R214). -/
def beginReply (p : Port) (s : State) : State :=
  match (s.port p).held with
  | some h =>
    if h.sending then s
    else
      setHeld p (some { h with sending := true })
        (beginFrame p (h.kind + 0x80) h.reply (passUntil (lineFree p s) s))
  | none => s

/-- A reply has been sent in full: the port releases the held request, and the restart it asked for is due (R213, R161). -/
def endReply (p : Port) (s : State) : State :=
  match (s.port p).held with
  | some h =>
    if h.sending then
      let t := passUntil (lineFree p s) s
      let u := t.setPort p { t.port p with held := none, transmitter := none }
      { u with restartDue := h.restart.or u.restartDue }
    else s
  | none => s

/-- The head pending notice begins as a NOTICE frame, when no reply is due (R203, R220). -/
def beginNotice (s : State) : State :=
  match s.control.held, s.events.notices with
  | none, n :: rest =>
    beginFrame .control 0xE0 (noticeBody n s)
      (passUntil (lineFree .control s) { s with events := { s.events with notices := rest } })
  | _, _ => s

/-- The head backlog copy begins as an EVENT COPY frame, when no reply is due (R207, R220). -/
def beginCopy (s : State) : State :=
  match s.monitor.held, s.events.backlog with
  | none, c :: rest =>
    beginFrame .monitor 0xE1 (copyBody c)
      (passUntil (lineFree .monitor s) { s with events := { s.events with backlog := rest } })
  | _, _ => s

/-- REPLY (R213). -/
def execReply (p : Port) (s : State) : Result := perform (beginReply p) s

/-- REPLY_SENT (R213). -/
def execReplySent (p : Port) (s : State) : Result := perform (endReply p) s

/-- NOTICE (R203). -/
def execNotice (s : State) : Result := perform beginNotice s

/-- EVENT_COPY (R207). -/
def execEventCopy (s : State) : Result := perform beginCopy s

end Sys2Proof.Machine
end

