-- ==== Sys2Proof/Machine/PartRequests.lean ====
section
/-! DEFINITION. RESTART (R161), a request of an unknown kind (R213), and the restarts and the loss of power themselves. -/

namespace Sys2Proof.Machine

/-- The code of a restart kind in a RESTART body (R216). -/
def RestartKind.code : RestartKind → Nat
  | .cold => 1
  | .warm => 2

/-- RESTART (R161): answered OK; the restart follows the reply. A body that names another kind of restart is refused here
with BAD_VALUE (log 3). -/
def restartRow (k : RestartKind) : RequestRow :=
  { kind := 0x1E, query := false, lengthOk := exactly 1, reads := fun _ _ => []
    act := fun _ _ body s =>
      if (body.headD 0).toNat = k.code then { accept s with restart := some k } else refuse .badValue s }

/-- RESTART COLD (R161). -/
def execRestartCold (r : Request) (s : State) : Result := performRequest (restartRow .cold) r s

/-- RESTART WARM (R161). -/
def execRestartWarm (r : Request) (s : State) : Result := performRequest (restartRow .warm) r s

/-- The kinds of the catalogue (R215). -/
def catalogue : List Byte := (List.range 8).map (fun n => BitVec.ofNat 8 (n + 1)) ++
  (List.range 15).map (fun n => BitVec.ofNat 8 (n + 0x10))

/-- A kind below 80h that is not in the catalogue (R213). -/
def unknownKind (kind : Byte) : Bool := kind.toNat < 0x80 && !catalogue.contains kind

/-- A request of an unknown kind is answered UNKNOWN_KIND (R213). -/
def takeUnknown (kind : Byte) (r : Request) (s : State) : State :=
  let t := received r.port s
  match taking r t with
  | .held => if unknownKind kind then holdAnswer r.port kind (refuse .unknownKind t) else t
  | .broadcast => t
  | .none => t

/-- A request whose kind is not in the catalogue (R213). -/
def execUnknownKind (kind : Byte) (r : Request) (s : State) : Result := perform (takeUnknown kind r) s

/-- A cold restart, at power-on or behind the reply to RESTART COLD (R162, log 27). -/
def execColdRestart (s : State) : Result := .next (coldRestart s)

/-- A warm restart, behind the reply to RESTART WARM (R163, log 27). -/
def execWarmRestart (s : State) : Result :=
  perform (fun t => if t.restartDue = some .warm then warmRestart t else t) s

/-- Loss of power (R150). -/
def execPowerLoss (s : State) : Result := .next (losePower s)

end Sys2Proof.Machine
end

