-- ==== Sys2Proof/Machine/SamplerRequests.lean ====
section
/-! DEFINITION. The sampler's requests: SWEEP SET, LINE SET, CLEAR LINE and CLEAR ANALYSER (chapter 3). -/

namespace Sys2Proof.Machine

/-! ### SWEEP SET (R59) -/

/-- The stations a SWEEP SET body names, where every entry lies in 1..16. -/
def sweepEntries (body : List Byte) : Option (List StationIx) := body.mapM fun b => stationOf b.toNat

/-- The words of the sweep list. -/
def sweepWords : List Nat := (List.range 8).map (448 + ·)

/-- The whole list is replaced, with 0 in every entry after its end (R59). -/
def setSweep (l : List StationIx) (s : State) : State :=
  rewriteWords sweepWords { s with sampler := { s.sampler with sweepEntries := entriesOf l, pointer := 0, passSampled := false } }

/-- SWEEP SET replaces the words of the list whole, so it does not read them (R187). An IDLE sampler then selects (R55). -/
def sweepSetRow : RequestRow :=
  { kind := 0x12, query := false, lengthOk := fun n => n ≤ Config.sweepCapacity, reads := fun _ _ => []
    act := fun _ _ body s =>
      match sweepEntries body with
      | some l => (accept (setSweep l s)).andThen (selectNow checked)
      | none => refuse .badValue s }

/-! ### LINE SET (R56) -/

/-- The pairs a LINE SET may carry (R56). -/
def linePairsOk (pairs : List (Nat × Nat)) : Bool :=
  pairs.all (fun p => p.1 ≤ 18 && p.2 ≤ 1 && (p.1 ≠ 0 || p.2 = 0)) && (pairs.map Prod.fst).Nodup

/-- Stores one pair. -/
def storeClass (t : Vector LineClass 19) (p : Nat × Nat) : Vector LineClass 19 :=
  t.setIfInBounds p.1 (if p.2 = 1 then .far else .near)

/-- LINE SET with pairs stores their classes (R56). -/
def setLines (pairs : List (Nat × Nat)) (s : State) : State :=
  if pairs.isEmpty then s
  else rewriteWords [456] { s with sampler := { s.sampler with classes := pairs.foldl storeClass s.sampler.classes } }

/-- LINE SET merges its pairs into word 456, unless it names all 19 lines (R187). -/
def lineSetRow : RequestRow :=
  { kind := 0x13, query := false, lengthOk := fun n => n % 2 = 0
    reads := fun body _ =>
      if linePairsOk (pairsOf body) && !(pairsOf body).isEmpty && (pairsOf body).length < 19 then [456] else []
    act := fun _ _ body s =>
      if linePairsOk (pairsOf body) then accept (setLines (pairsOf body) s) else refuse .badValue s }

/-! ### CLEAR LINE (R58) -/

/-- The mark of a line is cleared; where the line is a station's own, the station's claim is released (R58). -/
def clearMark (a : Access) (l : Line) (s : State) : State :=
  let t := { s with sampler := { s.sampler with marks := s.sampler.marks.set l.val false } }
  match stationOf l.val with
  | some i => releaseClaim a i t
  | none => t

/-- CLEAR LINE (R58): where a mark is cleared an IDLE sampler then selects (R55). -/
def clearLine (a : Access) (l : Line) (s : State) : Answer :=
  if s.sampler.marks[l.val] then (accept (clearMark a l s)).andThen (selectNow checked) else accept s

def clearLineRow : RequestRow :=
  { kind := 0x14, query := false, lengthOk := exactly 1, reads := fun _ _ => []
    act := fun a _ body s =>
      match lineOf (firstByte body) with
      | some l => clearLine a l s
      | none => refuse .badValue s }

/-! ### CLEAR ANALYSER (R72) -/

/-- The fault count and the condition are cleared (R72). -/
def clearCondition (s : State) : State :=
  let t := { s with sampler := { s.sampler with faultCount := 0, analyserFault := false } }
  if s.sampler.analyserFault then raise .analyserFault 0 (some .clear) none t else t

/-- A PAUSED sampler becomes free. -/
def freeSampler (s : State) : State := { s with sampler := { s.sampler with phase := .idle } }

/-- CLEAR ANALYSER (R72): a PAUSED sampler becomes free and selects. -/
def clearAnalyser (s : State) : Answer :=
  (if s.sampler.phase = .paused then (accept (freeSampler (clearCondition s))).andThen (selectNow checked)
   else accept (clearCondition s)).evaluated

def clearAnalyserRow : RequestRow :=
  { kind := 0x15, query := false, lengthOk := exactly 0, reads := fun _ _ => [], act := fun _ _ _ s => clearAnalyser s }

/-- SWEEP SET (R59). -/
def execSweepSet (r : Request) (s : State) : Result := performRequest sweepSetRow r s

/-- LINE SET (R56). -/
def execLineSet (r : Request) (s : State) : Result := performRequest lineSetRow r s

/-- CLEAR LINE (R58). -/
def execClearLine (r : Request) (s : State) : Result := performRequest clearLineRow r s

/-- CLEAR ANALYSER (R72). -/
def execClearAnalyser (r : Request) (s : State) : Result := performRequest clearAnalyserRow r s

end Sys2Proof.Machine
end

