-- ==== Sys2Proof/Machine/Timers.lean ====
section
/-! DEFINITION. What the part's own timers bring about, one command for each row that names an expiry. Each lets time pass up
to its instant and then acts; where its timer does not run, nothing happens (log 1, log 28). -/

namespace Sys2Proof.Machine

/-! ### The sampler (R67 to R69) -/

/-- The changeover ends: the start time is set and the purge timer starts (R67). -/
def endChangeover (s : State) : State :=
  match s.sampler.phase, s.sampler.inFlight with
  | .purging, some m =>
    if m.start.isNone then
      let t := passUntil m.due s
      { t with sampler := { t.sampler with
          inFlight := some { m with start := some (bankClock t), due := t.elapsed + m.purge * 1000 } } }
    else s
  | _, _ => s

/-- A reading is due, and the trip function is evaluated behind it (R71, R76, R168). -/
def dueReading (m : Sample) (take : State → State) (s : State) : State := judge s (take (passUntil m.due s))

/-- The purge timer expires (R68). -/
def endPurge (flow fault : Bool) (s : State) : State :=
  match s.sampler.phase, s.sampler.inFlight with
  | .purging, some m => if m.start.isSome then dueReading m (firstReading checked m flow fault) s else s
  | _, _ => s

/-- A further reading (R69). -/
def nextReading (fault : Bool) (s : State) : State :=
  match s.sampler.phase, s.sampler.inFlight with
  | .reading, some m => dueReading m (takeReading checked m fault) s
  | _, _ => s

/-- CHANGEOVER_END (R67). -/
def execChangeoverEnd (s : State) : Result := perform endChangeover s

/-- PURGE_END (R68). -/
def execPurgeEnd (flow fault : Bool) (s : State) : Result := perform (endPurge flow fault) s

/-- READING (R69). -/
def execReading (fault : Bool) (s : State) : Result := perform (nextReading fault) s

/-! ### The station table (R31) -/

/-- A station's settle expiry is reached (R31), unless damage found in its record has removed it. -/
def reachSettle (i : StationIx) (s : State) : State :=
  match (s.work i).settleExpiry with
  | some e =>
    carryOut (fun _ => workWords i) (fun a u => if (u.work i).settleExpiry.isSome then settleReached a i u else u)
      (passUntil (instantOf e) s)
  | none => s

/-- SETTLE_EXPIRY (R31). -/
def execSettleExpiry (i : StationIx) (s : State) : Result := perform (reachSettle i) s

/-! ### Rounds and the bank link (R159, R178, R181) -/

/-- The round timer's expiry is reached (R159): the round event is taken by the bank mode at that moment (R100), and the trip
function is evaluated behind it (R168, log 36). -/
def reachRound (s : State) : State :=
  match s.bank.roundTimer with
  | some e => judge s (roundTimerFires checked (passUntil (instantOf e) s))
  | none => s

/-- A MASTER with a hold lead other than 0 that holds no lead yet: it has one to begin (R178). With a lead of 0 the pulse
belongs to the round time (log 35). -/
def awaitsLead (s : State) : Bool := s.settings.bank.role = .master && !s.link.hold && s.settings.bank.holdLead ≠ 0

/-- The hold lead begins, where its moment has come with the role and the lead as they are read (R178). -/
def leadReached (s : State) : State :=
  match s.bank.roundTimer with
  | some e => if awaitsLead s && instantOf e ≤ s.elapsed + holdLeadMs s then beginLead s else s
  | none => s

/-- A MASTER's hold lead begins (R178). -/
def reachLead (s : State) : State :=
  match s.bank.roundTimer with
  | some e =>
    if awaitsLead s then carryOut (fun _ => [406]) (fun _ => leadReached) (passUntil (instantOf e - holdLeadMs s) s) else s
  | none => s

/-- The 0.1 s pulse of a hold lead of 0 ends (R178). -/
def endMarkPulse (s : State) : State :=
  match s.link.markPulseEnd with
  | some t => releaseMark (passUntil t s)
  | none => s

/-- A SLAVE in step, which alone can lose the link (R181). -/
def followsMark (s : State) : Bool := s.settings.bank.role = .slave && s.link.state = .inStep

/-- The link is lost, where the moment of a cause has come with the role and the balance period as they are read (R181). -/
def lossReached (s : State) : State :=
  match lossDue s with
  | some (at_, cause) => if followsMark s && at_ ≤ s.elapsed then loseLink checked cause s else s
  | none => s

/-- A SLAVE in step loses the link (R181). What the end of its hold finds damaged is judged at the end (R168). -/
def reachLoss (s : State) : State :=
  match lossDue s with
  | some (at_, _) => if followsMark s then judge s (lossReached (check (fun _ => [403, 406]) (passUntil at_ s))) else s
  | none => s

/-- ROUND_TIMER_EXPIRY (R159). -/
def execRoundTimerExpiry (s : State) : Result := perform reachRound s

/-- MARK_LEAD (R178). -/
def execMarkLead (s : State) : Result := perform reachLead s

/-- MARK_PULSE_END (R178). -/
def execMarkPulseEnd (s : State) : Result := perform endMarkPulse s

/-- LINK_LOST (R181). -/
def execLinkLost (s : State) : Result := perform reachLoss s

/-! ### The valve drive (R127, R132, R134, R138) -/

/-- The start gap has passed since the last motor start (R127). -/
def endStartGap (s : State) : State :=
  match s.drive.lastMotorStart with
  | some t => carryOut (fun _ => [398]) grantTest (passUntil (t + s.settings.bank.startGap * 500) s)
  | none => s

/-- A motion's next inch period begins, where it is in INCHING with a period that has ended (R132). -/
def inchPeriodReached (i : StationIx) (a : Access) (s : State) : State :=
  match motionOf s i with
  | some m =>
    match m.phase with
    | .inching pulses _ periodEnd _ => if periodEnd ≤ s.elapsed then nextInchPeriod a m pulses s else s
    | _ => s
  | none => s

/-- A motion's next inch period begins (R132), with the motion as the reads have left it (R189). -/
def reachInchPeriod (i : StationIx) (s : State) : State :=
  match motionOf s i with
  | some m =>
    match m.phase with
    | .inching _ _ periodEnd _ => carryOut (fun _ => workWords i) (inchPeriodReached i) (passUntil periodEnd s)
    | _ => s
  | none => s

/-- An inch pulse ends: its motor is switched off (R132). -/
def endInchPulse (i : StationIx) (s : State) : State :=
  match motionOf s i with
  | some m =>
    match m.phase with
    | .inching pulses start periodEnd (some (_, off)) =>
      setMotion { m with phase := .inching pulses start periodEnd none } (passUntil off s)
    | _ => s
  | none => s

/-- A reversal pause ends, where the motion is in REVERSING with a pause that is over (R134). -/
def pauseReached (i : StationIx) (a : Access) (s : State) : State :=
  match motionOf s i with
  | some m =>
    match m.phase with
    | .reversing pauseEnd => if pauseEnd ≤ s.elapsed then endReversal a m s else s
    | _ => s
  | none => s

/-- A reversal pause ends (R134), with the motion as the reads have left it (R189). -/
def reachPauseEnd (i : StationIx) (s : State) : State :=
  match motionOf s i with
  | some m =>
    match m.phase with
    | .reversing pauseEnd => carryOut (fun _ => workWords i) (pauseReached i) (passUntil pauseEnd s)
    | _ => s
  | none => s

/-- A motion times out, where it has run for the move timeout in force (R138). -/
def timeoutReached (i : StationIx) (a : Access) (s : State) : State :=
  match motionOf s i with
  | some m => if timeoutAt s m ≤ s.elapsed then timeoutMotion a i s else s
  | none => s

/-- A motion reaches the move timeout (R138), as it is read at that moment (R189). -/
def reachTimeout (i : StationIx) (s : State) : State :=
  match motionOf s i with
  | some m => carryOut (fun _ => [401]) (timeoutReached i) (passUntil (timeoutAt s m) s)
  | none => s

/-- START_GAP_END (R127). -/
def execStartGapEnd (s : State) : Result := perform endStartGap s

/-- INCH_PERIOD (R132). -/
def execInchPeriod (i : StationIx) (s : State) : Result := perform (reachInchPeriod i) s

/-- INCH_PULSE_END (R132). -/
def execInchPulseEnd (i : StationIx) (s : State) : Result := perform (endInchPulse i) s

/-- REVERSAL_PAUSE_END (R134). -/
def execReversalPauseEnd (i : StationIx) (s : State) : Result := perform (reachPauseEnd i) s

/-- TIMEOUT (R138). -/
def execTimeout (i : StationIx) (s : State) : Result := perform (reachTimeout i) s

/-! ### The trip unit (R169, R172) -/

/-- The trip words are read, and the bank is tripped with origin FUNCTION where the timer still runs (R169). -/
def persistenceReached (run : Reader) (s : State) : State :=
  let t := run (fun _ => [404, 405]) nothing s
  if t.trip.timer.isSome then tripAndRefresh run .function t else t

/-- The persistence timer reaches the persistence (R169). Damage of the trip words found then stops the timer (R176). -/
def reachPersistence (s : State) : State :=
  match s.trip.timer with
  | some t =>
    if s.bank.mode = .tripped then s
    else judgeFound s (persistenceReached checked (passUntil (t + persistenceOf s.settings.trip.persistence) s))
  | none => s

/-- A timed pulse on the trip line ends (R172). -/
def endTripPulse (s : State) : State :=
  match s.trip.line with
  | .pulse t =>
    let u := passUntil t s
    { u with trip := { u.trip with line := .released } }
  | _ => s

/-- PERSISTENCE_EXPIRY (R169). -/
def execPersistenceExpiry (s : State) : Result := perform reachPersistence s

/-- TRIP_PULSE_END (R172). -/
def execTripPulseEnd (s : State) : Result := perform endTripPulse s

/-! ### The memory (R188, R193) -/

/-- The scrub pointer has moved on from `w`, and the next interval has begun with the length the code gives (R193). -/
def nextScrub (w : Nat) (s : State) : State :=
  { s with memory := { s.memory with
      scrubPointer := (w + 1) % 512, scrubDue := s.elapsed + scrubInterval s.settings.bank.scrubCode } }

/-- A scrub read (R193): the word at the pointer is read and checked, the pointer moves on, and the next interval begins. Its
length is read from word 407, a read like any other (R187, log 7). -/
def scrub (s : State) : State :=
  let w := s.memory.scrubPointer
  carryOut (fun _ => [w, 407]) (fun _ => nextScrub w) (passUntil s.memory.scrubDue s)

/-- SCRUB (R193). -/
def execScrub (s : State) : Result := perform scrub s

/-- A pending write-back is made, unless a write of the word has dropped it (R188). -/
def writeBack (w : WordIx) (s : State) : State :=
  if s.memory.writeBacks.contains w.val then rewriteWords [w.val] s else s

/-- WRITE_BACK (R188). -/
def execWriteBack (w : WordIx) (s : State) : Result := perform (writeBack w) s

/-! ### The event unit (R202) -/

/-- A blink drop ends (R202). -/
def endBlinkDrop (s : State) : State :=
  match s.events.blinkDrop with
  | some t =>
    let u := passUntil t s
    { u with events := { u.events with blinkDrop := none } }
  | none => s

/-- BLINK_DROP_END (R202). -/
def execBlinkDropEnd (s : State) : Result := perform endBlinkDrop s

end Sys2Proof.Machine
end

