-- ==== Sys2Proof/Machine/Dispatch.lean ====
section
/-! DEFINITION. One arm for each command: the direct call of its meaning. -/

namespace Sys2Proof.Machine

def exec (i : Instr) (s : State) : Host.Outcome State Fault Refusal :=
  match i with
  | .ident r => Sys2Proof.Machine.execIdent r s
  | .status r => Sys2Proof.Machine.execStatus r s
  | .stationQuery r => Sys2Proof.Machine.execStationQuery r s
  | .bankQuery r => Sys2Proof.Machine.execBankQuery r s
  | .sweepQuery r => Sys2Proof.Machine.execSweepQuery r s
  | .tripQuery r => Sys2Proof.Machine.execTripQuery r s
  | .integrityQuery r => Sys2Proof.Machine.execIntegrityQuery r s
  | .peekEvents r => Sys2Proof.Machine.execPeekEvents r s
  | .stationSet r => Sys2Proof.Machine.execStationSet r s
  | .start r => Sys2Proof.Machine.execStart r s
  | .stationStop r => Sys2Proof.Machine.execStationStop r s
  | .isolate r => Sys2Proof.Machine.execIsolate r s
  | .release r => Sys2Proof.Machine.execRelease r s
  | .clearFault r => Sys2Proof.Machine.execClearFault r s
  | .unassign r => Sys2Proof.Machine.execUnassign r s
  | .pin r => Sys2Proof.Machine.execPin r s
  | .unpin r => Sys2Proof.Machine.execUnpin r s
  | .sampleNow r => Sys2Proof.Machine.execSampleNow r s
  | .sweepSet r => Sys2Proof.Machine.execSweepSet r s
  | .lineSet r => Sys2Proof.Machine.execLineSet r s
  | .clearLine r => Sys2Proof.Machine.execClearLine r s
  | .clearAnalyser r => Sys2Proof.Machine.execClearAnalyser r s
  | .bankSet r => Sys2Proof.Machine.execBankSet r s
  | .tripSet r => Sys2Proof.Machine.execTripSet r s
  | .run r => Sys2Proof.Machine.execRun r s
  | .modeStop r => Sys2Proof.Machine.execModeStop r s
  | .resume r => Sys2Proof.Machine.execResume r s
  | .tripNow r => Sys2Proof.Machine.execTripNow r s
  | .takeEvents r => Sys2Proof.Machine.execTakeEvents r s
  | .noticeSet r => Sys2Proof.Machine.execNoticeSet r s
  | .clearNotice r => Sys2Proof.Machine.execClearNotice r s
  | .castSet r => Sys2Proof.Machine.execCastSet r s
  | .integrityClear r => Sys2Proof.Machine.execIntegrityClear r s
  | .restartCold r => Sys2Proof.Machine.execRestartCold r s
  | .restartWarm r => Sys2Proof.Machine.execRestartWarm r s
  | .unknownKind kind r => Sys2Proof.Machine.execUnknownKind kind r s
  | .coldRestart => Sys2Proof.Machine.execColdRestart s
  | .warmRestart => Sys2Proof.Machine.execWarmRestart s
  | .frameSilenceTimeout p bytes => Sys2Proof.Machine.execFrameSilenceTimeout p bytes s
  | .frameCheckFail p bytes => Sys2Proof.Machine.execFrameCheckFail p bytes s
  | .reply p => Sys2Proof.Machine.execReply p s
  | .replySent p => Sys2Proof.Machine.execReplySent p s
  | .notice => Sys2Proof.Machine.execNotice s
  | .eventCopy => Sys2Proof.Machine.execEventCopy s
  | .conversion codes => Sys2Proof.Machine.execConversion codes s
  | .changeoverEnd => Sys2Proof.Machine.execChangeoverEnd s
  | .purgeEnd flow fault => Sys2Proof.Machine.execPurgeEnd flow fault s
  | .reading fault => Sys2Proof.Machine.execReading fault s
  | .settleExpiry station => Sys2Proof.Machine.execSettleExpiry station s
  | .roundTimerExpiry => Sys2Proof.Machine.execRoundTimerExpiry s
  | .markLead => Sys2Proof.Machine.execMarkLead s
  | .markPulseEnd => Sys2Proof.Machine.execMarkPulseEnd s
  | .markRise => Sys2Proof.Machine.execMarkRise s
  | .markFall => Sys2Proof.Machine.execMarkFall s
  | .linkLost => Sys2Proof.Machine.execLinkLost s
  | .startGapEnd => Sys2Proof.Machine.execStartGapEnd s
  | .inchPeriod station => Sys2Proof.Machine.execInchPeriod station s
  | .inchPulseEnd station => Sys2Proof.Machine.execInchPulseEnd station s
  | .reversalPauseEnd station => Sys2Proof.Machine.execReversalPauseEnd station s
  | .timeout station => Sys2Proof.Machine.execTimeout station s
  | .persistenceExpiry => Sys2Proof.Machine.execPersistenceExpiry s
  | .pumpRunContact open_ => Sys2Proof.Machine.execPumpRunContact open_ s
  | .arrestorContact closed => Sys2Proof.Machine.execArrestorContact closed s
  | .tripLineSensed others => Sys2Proof.Machine.execTripLineSensed others s
  | .tripPulseEnd => Sys2Proof.Machine.execTripPulseEnd s
  | .scrub => Sys2Proof.Machine.execScrub s
  | .writeBack word => Sys2Proof.Machine.execWriteBack word s
  | .blinkDropEnd => Sys2Proof.Machine.execBlinkDropEnd s
  | .frameLengthDiscard p address kind length => Sys2Proof.Machine.execFrameLengthDiscard p address kind length s
  | .frameIgnored p address kind body => Sys2Proof.Machine.execFrameIgnored p address kind body s
  | .powerLoss => Sys2Proof.Machine.execPowerLoss s

end Sys2Proof.Machine
end

