-- ==== Sys2Proof/Safety.lean ====
section
/-! DEFINITION. What counts as a safe state: the invariants the manual states of the part as a whole, in the terms the
claims use. -/

namespace Sys2Proof.Machine

/-- The isolation line is ENERGISED while the bank mode is RUNNING, and RELEASED otherwise (R150). -/
def IsolationFollowsMode (s : State) : Prop := s.bank.isolation = true ↔ s.bank.mode = .running

/-- The bounds of the event unit's lists and counts (R196). -/
def EventsBounded (s : State) : Prop :=
  s.events.queue.length ≤ Config.eventCapacity ∧ s.events.overflow ≤ 255 ∧
    s.events.backlog.length ≤ Config.backlogCapacity ∧ s.events.drops ≤ 255

/-- The pending notices: no two of one class, classes 0 to 3, and none without a category (R203, R204). -/
def NoticesSound (s : State) : Prop :=
  (s.events.notices.map PendingNotice.class_).Nodup ∧
    ∀ n ∈ s.events.notices, n.class_ ≤ 3 ∧ n.categories.nonempty = true

/-- The sampler's phase agrees with the sample in flight and with the bank mode (R54). -/
def SamplerPhased (s : State) : Prop :=
  (s.sampler.inFlight.isSome = true ↔ s.sampler.phase = .purging ∨ s.sampler.phase = .reading) ∧
    (s.sampler.phase = .stopped ↔ s.bank.mode = .idle)

/-- The bounds of the sampler's lists and counts (R53, R62). -/
def SamplerBounded (s : State) : Prop :=
  s.sampler.demand.length ≤ Config.demandCapacity ∧ s.sampler.demand.Nodup ∧
    s.sampler.sweepList.length ≤ Config.sweepCapacity ∧ s.sampler.passCount ≤ 15 ∧ s.sampler.faultCount ≤ 3

/-- The latch, the lines and the timer of the trip unit agree with the bank mode (R169, R172 to R174). -/
def TripSound (s : State) : Prop :=
  (s.trip.latch = .clear ↔ s.bank.mode ≠ .tripped) ∧
    (s.trip.linkDrive = true ↔ s.trip.latch = .localTrip) ∧
    (s.bank.mode ≠ .tripped → s.trip.line = .released) ∧
    (s.bank.mode = .tripped → s.trip.timer = none)

/-- The drive's records: no station twice among the motions and the queue, at most four motions, and none while the bank is
IDLE (R121, R124, R141, R145). -/
def DriveSound (s : State) : Prop :=
  (s.drive.motions.map Motion.station ++ s.drive.queue.map QueuedMove.station).Nodup ∧
    s.drive.motions.length ≤ 4 ∧ s.settings.bank.slotCount ≤ 4 ∧
    (s.bank.mode = .idle → s.drive.motions = [])

/-- The wrong-bit list is in its canonical form, and the pointer and the list of damage in their ranges (R185, R191). -/
def MemorySound (s : State) : Prop :=
  s.memory.wf = true ∧ s.memory.scrubPointer < 512 ∧ s.memory.damageList.length ≤ Config.damageCapacity ∧
    s.memory.damageList.Nodup ∧ s.memory.damageOverflow ≤ 255 ∧ s.memory.corrections ≤ 65535

/-- No word holds more than two wrong bits, so every read is one of the three outcomes by count alone (R187). -/
def FewWrongBits (s : State) : Prop := ∀ e ∈ s.memory.wrongBits, countBits e.2 ≤ 2

/-- Every assigned station whose damaged mark is clear holds a complete configuration (R3). -/
def ConfigsComplete (s : State) : Prop :=
  ∀ i : StationIx, (s.work i).state.assigned = true → (s.work i).damaged = false → (s.cfg i).complete = true

/-- A station whose record carries the damaged mark is FAULTED (R8). -/
def DamagedFaulted (s : State) : Prop :=
  ∀ i : StationIx, (s.work i).damaged = true → ∃ c, (s.work i).state = .faulted c

/-- Every station's target is one the clamp lets stand in the station's state (R10). -/
def TargetsClamped (s : State) : Prop :=
  ∀ i : StationIx, (s.work i).target = clampTarget (s.cfg i) (s.work i).state (s.work i).target

/-- A recovery run is at most the recovery count, and 0 outside QUARANTINED (R8). -/
def RunsBounded (s : State) : Prop :=
  ∀ i : StationIx, (s.work i).recoveryRun ≤ (s.cfg i).recoveryCount ∧
    ((s.work i).state ≠ .quarantined → (s.work i).recoveryRun = 0)

/-- Only a PRODUCING or QUARANTINED station holds a claim (R75). -/
def ClaimsSound (s : State) : Prop :=
  ∀ i : StationIx, s.sampler.claim17 = some i ∨ s.sampler.claim18 = some i → (s.work i).state.active = true

/-- No demand entry and no sample in flight is for a station that is UNUSED or ISOLATED (R53, R62). -/
def SamplingSound (s : State) : Prop :=
  ∀ i : StationIx, i ∈ s.sampler.demand ∨ s.sampler.inFlight.bind (fun m => m.source.station?) = some i →
    (s.work i).state ≠ .unused ∧ (s.work i).state ≠ .isolated

/-- The station table as the manual keeps it: what a word with three or more wrong bits could bring in is left out
(log 6). -/
structure TableSound (s : State) : Prop where
  memory : s.memory.wf = true
  few : FewWrongBits s
  complete : ConfigsComplete s
  damaged : DamagedFaulted s
  targets : TargetsClamped s
  runs : RunsBounded s

/-- The function output is the value the terms give, and the settings of a part without power are at their defaults (R162,
R168). -/
def OutputCurrent (s : State) : Prop :=
  s.trip.output = functionValue s ∧ (s.powered = false → s.settings.trip.function = .off)

/-! ### What claims assume of a state or a request, and the shape of an answer -/

/-- A powered part whose words are all good, so that no checked read finds anything (R187). -/
def Undisturbed (s : State) : Prop := s.powered = true ∧ s.memory.wrongBits = [] ∧ s.memory.writeBacks = []

/-- A request frame that becomes the held request of its port (R212). -/
def Taken (r : Request) (s : State) : Prop :=
  Undisturbed s ∧ r.address ≠ broadcast ∧ ownAddress s r.address = true ∧ (s.port r.port).held = none

/-- A request on the control port that becomes its held request. -/
def TakenControl (r : Request) (s : State) : Prop := Taken r s ∧ r.port = .control

/-- An evaluation of the trip function does not trip the bank at once (R169). -/
def NoTripDue (s : State) : Prop :=
  functionValue s = false ∨ s.bank.mode = .tripped ∨ persistenceOf s.settings.trip.persistence ≠ 0

/-- No evaluation of the trip function trips the bank at once, whatever the conditions become (R169). -/
def NeverTripsAtOnce (s : State) : Prop :=
  s.bank.mode = .tripped ∨ s.settings.trip.function = .off ∨ persistenceOf s.settings.trip.persistence ≠ 0

/-- A grant for the station does not find its position absent (R130). -/
def Drivable (i : StationIx) (s : State) : Prop := s.bank.mode = .idle ∨ (s.work i).position.isSome = true

/-- A station with no move in hand in `s` has been given a move to its target in `t` (R124): completed at once, waiting in the
queue, or begun. -/
def MoveHanded (i : StationIx) (s t : State) : Prop :=
  ∀ p, (s.work i).position = some p →
    if within p (t.work i).target Config.deadband then (t.work i).lastMoveDone = some (bankClock s)
    else ⟨i, (t.work i).target⟩ ∈ t.drive.queue ∨ (motionOf t i).map Motion.target = some (t.work i).target

/-- The adjustments of a round taken in `s` have reached the station table and the drive by `t` (R12, R117), and no other station
has been moved. What a hold parked is handed on behind the round, so that the premise takes it that nothing is parked. -/
def RoundReachesTable (s t : State) : Prop :=
  NeverTripsAtOnce s → TargetsClamped s →
  (s.link.hold = true → s.sampler.parked = none ∧ ∀ i : StationIx, s.measure.parked[i.val] = none) →
  (∀ a ∈ (roundRecord s).adjustments, a.new ≠ a.old → Drivable a.station s →
    (t.work a.station).target = a.new ∧ (t.work a.station).fresh = false ∧ (t.work a.station).state = .producing ∧
      MoveHanded a.station s t) ∧
  ∀ j : StationIx, (∀ a ∈ (roundRecord s).adjustments, a.station ≠ j) → Drivable j s →
    (t.work j).target = (s.work j).target ∧ (t.work j).state = (s.work j).state

/-- A port that has taken a whole frame and holds a request with the reply body formed for it. -/
def replied (p : Port) (kind : Byte) (body : List Byte) (restart : Option RestartKind) (s : State) : State :=
  s.setPort p { s.port p with receiver := .hunt, held := some ⟨kind, body, false, restart⟩ }

/-- The control port holds a request of a kind, answered with a status alone. -/
def Answered (kind : Byte) (c : Status) (t : State) : Prop := t.control.held = some ⟨kind, [c.code], false, none⟩

/-- A station command whose number is no station's is refused with BAD_VALUE and changes nothing (R18). -/
def RefusesOtherNumbers (c : Request → Instr) (operation : Byte) : Prop :=
  ∀ (r : Request) (s : State) (n : Byte), TakenControl r s → r.body = [n, operation] → n.toNat = 0 ∨ 16 < n.toNat →
    exec (c r) s = .next (replied .control 0x11 [0x12] none s)

/-- The spare line `l` is one a PRODUCING or QUARANTINED station may claim when the line `failed` has failed (R74): it is the
station's standby line, the failed line is the station's own, and the spare is unmarked and unclaimed. -/
def SpareOpen (s : State) (i : StationIx) (failed : Line) (l : SpareLine) : Prop :=
  (s.cfg i).standbyLine = some l ∧ failed = ownLine i ∧ s.sampler.marks[l.line.val] = false ∧
    (match l with
     | .line17 => s.sampler.claim17
     | .line18 => s.sampler.claim18) = none

/-- `t` differs from `s` only in the station table, the sampler, the drive, the event unit and the control port. -/
def OnlyTable (s t : State) : Prop :=
  t = { s with stations := t.stations, sampler := t.sampler, drive := t.drive, events := t.events, control := t.control }

/-- The settings, the protected memory, every configuration, the queue of commands and what a restart fixes are kept. -/
def Kept (s t : State) : Prop :=
  t.powered = s.powered ∧ t.restartDue = s.restartDue ∧ t.address = s.address ∧ t.settings = s.settings ∧
    t.memory = s.memory ∧ t.pending = s.pending ∧ ∀ j : StationIx, t.cfg j = s.cfg j

/-- And so are the ports and the field levels: what a command of the part's own timers leaves alone. -/
def Silent (s t : State) : Prop :=
  Kept s t ∧ t.control = s.control ∧ t.monitor = s.monitor ∧ t.pins = s.pins

/-- What an evaluation of the trip function leaves, from `s` with the values it reads as they stand (R168, R169). -/
def Evaluated (s t : State) : Prop :=
  t.trip.output = functionValue t ∧
    (functionValue s = false ∨ s.bank.mode = .tripped → t.trip.timer = none ∧ t.bank.mode = s.bank.mode) ∧
    (functionValue s = true → s.bank.mode ≠ .tripped → persistenceOf s.settings.trip.persistence ≠ 0 →
      t.trip.timer = some (s.trip.timer.getD s.elapsed) ∧ t.bank.mode = s.bank.mode) ∧
    (functionValue s = true → s.bank.mode ≠ .tripped → persistenceOf s.settings.trip.persistence = 0 →
      t.bank.mode = .tripped)

/-- What a trip of origin `o` leaves, taken from `s` (R28, R170 to R173). -/
def TrippedFrom (o : TripOrigin) (s t : State) : Prop :=
  t.bank.mode = .tripped ∧ t.bank.isolation = false ∧ t.trip.latch = latchOf s o ∧
    t.trip.record = some (tripRecordOf s o) ∧ t.trip.timer = none ∧
    t.trip.line = tripLineFrom s.elapsed s.settings.trip.pulseWidth ∧
    (t.trip.linkDrive = true ↔ latchOf s o = .localTrip) ∧
    ∀ i : StationIx, (t.work i).target = 0 ∧ (t.work i).quarantineCount = (s.work i).quarantineCount ∧
      ((s.work i).state.active = true → (t.work i).state = .standby ∧ (t.work i).restartMark = true) ∧
      ((s.work i).state.active = false → (t.work i).state = (s.work i).state)

/-- The first event of a change of mode from `s` to `new`, where the queue has room (R157). -/
def ModeEventFirst (s : State) (new : BankMode) (t : State) : Prop :=
  s.events.queue.length < Config.eventCapacity → ∃ rest, t.events.queue =
    s.events.queue ++ ⟨.mode, 0, none, bankClock s, some (new.code + 16 * s.bank.mode.code)⟩ :: rest

/-- A station that a start or a command has moved, as it stands behind the grant that may follow: in its state, or stalled
where a grant found its position absent (R130, R137). -/
def StandsAs (i : StationIx) (st : StationState) (s t : State) : Prop :=
  (t.work i).state = st ∨ ¬ Drivable i s ∧ (t.work i).state = .faulted .valveStall

/-- The row of the catalogue and the frame of a request command. -/
def requestOf : Instr → Option (RequestRow × Request)
  | .ident r => some (identRow, r)
  | .status r => some (statusRow, r)
  | .stationQuery r => some (stationRow, r)
  | .bankQuery r => some (bankRow, r)
  | .sweepQuery r => some (sweepRow, r)
  | .tripQuery r => some (tripRow, r)
  | .integrityQuery r => some (integrityRow, r)
  | .peekEvents r => some (peekRow, r)
  | .stationSet r => some (stationSetRow, r)
  | .start r => some (startRow, r)
  | .stationStop r => some (stopRow, r)
  | .isolate r => some (isolateRow, r)
  | .release r => some (releaseRow, r)
  | .clearFault r => some (clearFaultRow, r)
  | .unassign r => some (unassignRow, r)
  | .pin r => some (pinRow, r)
  | .unpin r => some (unpinRow, r)
  | .sampleNow r => some (sampleNowRow, r)
  | .sweepSet r => some (sweepSetRow, r)
  | .lineSet r => some (lineSetRow, r)
  | .clearLine r => some (clearLineRow, r)
  | .clearAnalyser r => some (clearAnalyserRow, r)
  | .bankSet r => some (bankSetRow, r)
  | .tripSet r => some (tripSetRow, r)
  | .run r => some (runRow, r)
  | .modeStop r => some (modeStopRow, r)
  | .resume r => some (resumeRow, r)
  | .tripNow r => some (tripNowRow, r)
  | .takeEvents r => some (takeEventsRow, r)
  | .noticeSet r => some (noticeSetRow, r)
  | .clearNotice r => some (clearNoticeRow, r)
  | .castSet r => some (castSetRow, r)
  | .integrityClear r => some (integrityClearRow, r)
  | .restartCold r => some (restartRow .cold, r)
  | .restartWarm r => some (restartRow .warm, r)
  | .unknownKind _ _ => none
  | .coldRestart => none
  | .warmRestart => none
  | .frameSilenceTimeout _ _ => none
  | .frameCheckFail _ _ => none
  | .reply _ => none
  | .replySent _ => none
  | .notice => none
  | .eventCopy => none
  | .conversion _ => none
  | .changeoverEnd => none
  | .purgeEnd _ _ => none
  | .reading _ => none
  | .settleExpiry _ => none
  | .roundTimerExpiry => none
  | .markLead => none
  | .markPulseEnd => none
  | .markRise => none
  | .markFall => none
  | .linkLost => none
  | .startGapEnd => none
  | .inchPeriod _ => none
  | .inchPulseEnd _ => none
  | .reversalPauseEnd _ => none
  | .timeout _ => none
  | .persistenceExpiry => none
  | .pumpRunContact _ => none
  | .arrestorContact _ => none
  | .tripLineSensed _ => none
  | .tripPulseEnd => none
  | .scrub => none
  | .writeBack _ => none
  | .blinkDropEnd => none
  | .frameLengthDiscard _ _ _ _ => none
  | .frameIgnored _ _ _ _ => none
  | .powerLoss => none

end Sys2Proof.Machine
end

