-- ==== Sys2Proof/WellFormed.lean ====
section
/-! DEFINITION. Well-formed commands: what a row's operands must be for the row to be the step it is named for. Every
command has a meaning, well-formed or not; only a well-formed one can come about. -/

namespace Sys2Proof

open Sys2Proof.Machine

/-- A body fits in a frame (R210). -/
def Request.fits (r : Request) : Bool := r.body.length ≤ maxBody

/-- The operation a body names is the row's own, or none of the `count` listed ones (R216, log 3). -/
def operationFits (operation count : Nat) (named : Nat) : Bool :=
  named = operation || named = 0 || count < named

/-- A STATION COMMAND frame that may come as the row of an operation. -/
def Request.commandFits (r : Request) (operation : Nat) : Bool :=
  r.fits && (r.body.length ≠ 2 || operationFits operation 9 (bodyOperation r.body))

/-- A MODE frame that may come as the row of an operation. -/
def Request.modeFits (r : Request) (operation : Nat) : Bool :=
  r.fits && (r.body.length ≠ 1 || operationFits operation 4 (firstByte r.body))

/-- A RESTART frame that may come as the row of a kind. -/
def Request.restartFits (r : Request) (kind : RestartKind) : Bool :=
  r.fits && (r.body.length ≠ 1 || operationFits kind.code 2 (firstByte r.body))

/-- The bytes of a frame not yet complete: the receiver is inside it (R211). -/
def insideFrame (bytes : List Byte) : Bool :=
  bytes.head? = some leadByte && Receiver.takeAll .hunt bytes ≠ .hunt

/-- The bytes of one complete frame whose check differs from the one formed (R211). -/
def badCheckFrame (bytes : List Byte) : Bool :=
  match bytes with
  | lead :: address :: kind :: length :: rest =>
    lead = leadByte && length.toNat ≤ maxBody && rest.length = length.toNat + 2 &&
      rest.drop length.toNat ≠ bytesOf 2 (frameCheck (address :: kind :: length :: rest.take length.toNat)).toNat
  | _ => false

/-- The operands of a command fit its row. -/
def Instr.wellFormed : Instr → Bool
  | .ident r => r.fits
  | .status r => r.fits
  | .stationQuery r => r.fits
  | .bankQuery r => r.fits
  | .sweepQuery r => r.fits
  | .tripQuery r => r.fits
  | .integrityQuery r => r.fits
  | .peekEvents r => r.fits
  | .stationSet r => r.fits
  | .start r => r.commandFits 1
  | .stationStop r => r.commandFits 2
  | .isolate r => r.commandFits 3
  | .release r => r.commandFits 4
  | .clearFault r => r.commandFits 5
  | .unassign r => r.commandFits 6
  | .pin r => r.commandFits 7
  | .unpin r => r.commandFits 8
  | .sampleNow r => r.commandFits 9
  | .sweepSet r => r.fits
  | .lineSet r => r.fits
  | .clearLine r => r.fits
  | .clearAnalyser r => r.fits
  | .bankSet r => r.fits
  | .tripSet r => r.fits
  | .run r => r.modeFits 1
  | .modeStop r => r.modeFits 2
  | .resume r => r.modeFits 3
  | .tripNow r => r.modeFits 4
  | .takeEvents r => r.fits
  | .noticeSet r => r.fits
  | .clearNotice r => r.fits
  | .castSet r => r.fits
  | .integrityClear r => r.fits
  | .restartCold r => r.restartFits .cold
  | .restartWarm r => r.restartFits .warm
  | .unknownKind kind r => r.fits && Machine.unknownKind kind
  | .coldRestart => true
  | .warmRestart => true
  | .frameSilenceTimeout _ bytes => insideFrame bytes
  | .frameCheckFail _ bytes => badCheckFrame bytes
  | .reply _ => true
  | .replySent _ => true
  | .notice => true
  | .eventCopy => true
  | .conversion _ => true
  | .changeoverEnd => true
  | .purgeEnd _ _ => true
  | .reading _ => true
  | .settleExpiry _ => true
  | .roundTimerExpiry => true
  | .markLead => true
  | .markPulseEnd => true
  | .markRise => true
  | .markFall => true
  | .linkLost => true
  | .startGapEnd => true
  | .inchPeriod _ => true
  | .inchPulseEnd _ => true
  | .reversalPauseEnd _ => true
  | .timeout _ => true
  | .persistenceExpiry => true
  | .pumpRunContact _ => true
  | .arrestorContact _ => true
  | .tripLineSensed _ => true
  | .tripPulseEnd => true
  | .scrub => true
  | .writeBack _ => true
  | .blinkDropEnd => true
  | .frameLengthDiscard _ _ _ length => maxBody < length.toNat
  | .frameIgnored _ _ _ body => body.length ≤ maxBody
  | .powerLoss => true

end Sys2Proof
end

