-- ==== Sys2Proof/Certificates/Slice0/Obligations.lean ====
section
/-! DEFINITION. The statements for the provers. -/

open Sys2Proof Sys2Proof.Machine

/-! ### The machine -/

/-- A step takes the command at the front of the queue and carries it out on the state with the queue's rest. -/
def Obligations.StepTakesFrontCommand : Prop :=
  ∀ (s : State) (c : Instr) (rest : List Instr), s.pending = c :: rest → step s = exec c { s with pending := rest }

/-- The model's choice (log 2): with no command waiting a powered part lets 0.1 s pass. -/
def Obligations.IdleStepTicks : Prop :=
  ∀ s : State, s.pending = [] →
    (s.powered = true → step s = .next { s with elapsed := s.elapsed + 100 }) ∧ (s.powered = false → step s = .next s)

/-- The state after reset meets every invariant of Safety. -/
def Obligations.ResetIsSound : Prop :=
  IsolationFollowsMode State.reset ∧ EventsBounded State.reset ∧ NoticesSound State.reset ∧
    SamplerPhased State.reset ∧ SamplerBounded State.reset ∧ TripSound State.reset ∧ DriveSound State.reset ∧
    MemorySound State.reset ∧ TableSound State.reset ∧ ClaimsSound State.reset ∧ SamplingSound State.reset ∧
    OutputCurrent State.reset

/-! ### Invariants that every step keeps -/

/-- The isolation line is ENERGISED in RUNNING and RELEASED otherwise. -/
def Obligations.StepKeepsIsolation : Prop :=
  ∀ s t : State, IsolationFollowsMode s → step s = .next t → IsolationFollowsMode t

/-- The event unit's lists and counts keep their bounds, and the pending notices their form. -/
def Obligations.StepKeepsEventUnit : Prop :=
  ∀ s t : State, EventsBounded s → NoticesSound s → step s = .next t → EventsBounded t ∧ NoticesSound t

/-- The sampler's phase agrees with the sample in flight and the bank mode, and its lists and counts keep their bounds. -/
def Obligations.StepKeepsSampler : Prop :=
  ∀ s t : State, step s = .next t → (SamplerPhased s → SamplerPhased t) ∧ (SamplerBounded s → SamplerBounded t)

/-- The trip latch, the trip line, the link TRIP drive and the timer agree with the bank mode. -/
def Obligations.StepKeepsTripLines : Prop :=
  ∀ s t : State, TripSound s → step s = .next t → TripSound t

/-- No station stands twice in the drive, at most four motions run, and none in IDLE. The premise on wrong bits leaves out
the free values of log 6. -/
def Obligations.StepKeepsDrive : Prop :=
  ∀ s t : State, FewWrongBits s → DriveSound s → step s = .next t → FewWrongBits t ∧ DriveSound t

/-- The wrong-bit list keeps its canonical form, and the memory's counts and lists their ranges. -/
def Obligations.StepKeepsMemory : Prop :=
  ∀ s t : State, MemorySound s → step s = .next t → MemorySound t

/-- The station table: assigned undamaged stations hold complete configurations, damaged ones are FAULTED, every target is
one the clamp allows, and recovery runs stay in their range. -/
def Obligations.StepKeepsTable : Prop :=
  ∀ s t : State, TableSound s → step s = .next t → TableSound t

/-- Only active stations hold claims, and no entry or sample is for a station that is UNUSED or ISOLATED. -/
def Obligations.StepKeepsSampling : Prop :=
  ∀ s t : State, FewWrongBits s → ClaimsSound s → SamplingSound s → step s = .next t →
    FewWrongBits t ∧ ClaimsSound t ∧ SamplingSound t

/-- The trip function output is current after every step (log 13). -/
def Obligations.StepKeepsOutput : Prop :=
  ∀ s t : State, TableSound s → OutputCurrent s → step s = .next t → OutputCurrent t

/-! ### Rules over all commands -/

/-- No command changes the queue of waiting commands. -/
def Obligations.CommandsKeepQueue : Prop :=
  ∀ (c : Instr) (s t : State), exec c s = .next t → t.pending = s.pending

/-- Only RUN and RESUME energise the isolation line. -/
def Obligations.IsolationEnergisedByModeRequests : Prop :=
  ∀ (c : Instr) (s t : State), exec c s = .next t → s.bank.isolation = false → t.bank.isolation = true →
    ∃ r, c = .run r ∨ c = .resume r

/-- The model's choice (log 11): without power only a restart changes more than the field levels. -/
def Obligations.UnpoweredPartStandsStill : Prop :=
  ∀ (c : Instr) (s : State), s.powered = false → c ≠ .coldRestart → c ≠ .powerLoss →
    ∃ p, exec c s = .next { s with pins := p }

/-! ### Ports -/

/-- A request for another address, or one that comes while the port holds a request, changes only the receiver; so do a
broadcast of a query and a broadcast on the monitor port. -/
def Obligations.RequestsWithNoEffect : Prop :=
  ∀ (c : Instr) (row : RequestRow) (r : Request) (s : State), requestOf c = some (row, r) → s.powered = true →
    (r.address ≠ broadcast ∧ (ownAddress s r.address = false ∨ (s.port r.port).held.isSome = true)) ∨
      (r.address = broadcast ∧ (row.query = true ∨ r.port = .monitor)) →
    exec c s = .next (received r.port s)

/-- READ_ONLY and BAD_LENGTH: a control request on the monitor port, and a body length the row does not allow, are refused
with that status alone, and nothing else changes. -/
def Obligations.RefusedBeforeOwner : Prop :=
  ∀ (c : Instr) (row : RequestRow) (r : Request) (s : State), requestOf c = some (row, r) → s.powered = true →
    r.address ≠ broadcast → ownAddress s r.address = true → (s.port r.port).held = none →
    (row.query = false → r.port = .monitor → exec c s = .next (replied r.port row.kind [0x17] none s)) ∧
      (row.query = true ∨ r.port = .control → row.lengthOk r.body.length = false →
        exec c s = .next (replied r.port row.kind [0x11] none s))

/-- A request of a kind that is not in the catalogue is answered UNKNOWN_KIND and changes nothing else; a broadcast of one
is not answered. -/
def Obligations.UnknownKindAnswered : Prop :=
  ∀ (kind : Byte) (r : Request) (s : State), unknownKind kind = true → s.powered = true →
    (r.address ≠ broadcast → ownAddress s r.address = true → (s.port r.port).held = none →
      exec (.unknownKind kind r) s = .next (replied r.port kind [0x10] none s)) ∧
    (r.address = broadcast → exec (.unknownKind kind r) s = .next (received r.port s))

/-- A due reply begins once the line is free, under the request's kind plus 80h; when it has been sent in full the held
request is released, and a restart it asked for is due. It is the model's choice when the frame
ends (log 26), and that a restart waits as due for its own command (log 27, DEDUCED). -/
def Obligations.RepliesBeginAndEnd : Prop :=
  ∀ (p : Port) (s : State) (h : HeldRequest), s.powered = true → (s.port p).held = some h →
    (h.sending = false →
      exec (.reply p) s = .next ((passUntil (lineFree p s) s).setPort p { s.port p with
        held := some { h with sending := true }
        transmitter := some ⟨BitVec.ofNat 8 s.address, h.kind + 0x80, h.reply,
          max s.elapsed (lineFree p s) + frameTime h.reply.length⟩ })) ∧
    (h.sending = true →
      exec (.replySent p) s = .next { (passUntil (lineFree p s) s).setPort p { s.port p with
        held := none, transmitter := none } with restartDue := h.restart.or s.restartDue })

/-- With no request held, the head notice leaves the list as a NOTICE frame, and the head copy the backlog as an EVENT COPY
frame; nothing else changes but the time until the line is free. The instant at which a frame ends is the model's choice
(log 26). -/
def Obligations.UnsolicitedFrames : Prop :=
  (∀ (s : State) (n : PendingNotice) (rest : List PendingNotice), s.powered = true → s.control.held = none →
    s.events.notices = n :: rest →
    exec .notice s = .next { s with
      elapsed := max s.elapsed (lineFree .control s)
      events := { s.events with notices := rest }
      control := { s.control with transmitter := some ⟨BitVec.ofNat 8 s.address, 0xE0,
        [BitVec.ofNat 8 n.class_, BitVec.ofNat 8 s.events.flags.toNat],
        max s.elapsed (lineFree .control s) + frameTime 2⟩ } }) ∧
  (∀ (s : State) (k : EventCopy) (rest : List EventCopy), s.powered = true → s.monitor.held = none →
    s.events.backlog = k :: rest →
    exec .eventCopy s = .next { s with
      elapsed := max s.elapsed (lineFree .monitor s)
      events := { s.events with backlog := rest }
      monitor := { s.monitor with transmitter := some ⟨BitVec.ofNat 8 s.address, 0xE1, copyBody k,
        max s.elapsed (lineFree .monitor s) + frameTime 11⟩ } })

/-- A frame that is not taken leaves the part as it was: cut off by a silence, with a bad check, too long, or ignored. -/
def Obligations.FramesNotTaken : Prop :=
  ∀ s : State, s.powered = true →
    (∀ p bytes, exec (.frameSilenceTimeout p bytes) s = .next (received p s)) ∧
    (∀ p bytes, (s.port p).receiver = .hunt → (Instr.frameCheckFail p bytes).wellFormed = true →
      exec (.frameCheckFail p bytes) s = .next s) ∧
    (∀ p (address kind length : Byte), (s.port p).receiver = .hunt → 120 < length.toNat →
      exec (.frameLengthDiscard p address kind length) s = .next s) ∧
    (∀ p (address kind : Byte) body, (s.port p).receiver = .hunt → body.length ≤ 120 →
      exec (.frameIgnored p address kind body) s = .next s)


/-! ### Queries -/

/-- Six queries of an empty body are answered OK with their contents and change nothing else. Where the manual
gives no layout, the order and the widths of the contents are the model's choice (log 25). -/
def Obligations.PlainQueriesAnswered : Prop :=
  ∀ (r : Request) (s : State), Taken r s → r.body = [] →
    exec (.ident r) s = .next (replied r.port 0x01
      [0x00, 0x4F, 0x04, 0x16, BitVec.ofNat 8 s.address, BitVec.ofNat 8 (Port.code r.port)] none s) ∧
    exec (.status r) s = .next (replied r.port 0x02 (0x00 :: statusContents s) none s) ∧
    (s.drive.queue.length ≤ 16 → (0x00 :: statusContents s : List Byte).length = 86) ∧
    exec (.bankQuery r) s = .next (replied r.port 0x04 (0x00 :: bankContents s) none s) ∧
    exec (.sweepQuery r) s = .next (replied r.port 0x05 (0x00 :: sweepContents s) none s) ∧
    exec (.tripQuery r) s = .next (replied r.port 0x06 (0x00 :: tripContents s) none s) ∧
    exec (.integrityQuery r) s = .next (replied r.port 0x07 (0x00 :: integrityContents s) none s)

/-- STATION QUERY answers with the 58 bytes of the named station's record, in any state; another number is refused. -/
def Obligations.StationQueryAnswered : Prop :=
  ∀ (r : Request) (s : State) (n : Byte), Taken r s → r.body = [n] →
    (∀ i : StationIx, n.toNat = i.val + 1 →
      exec (.stationQuery r) s = .next (replied r.port 0x03 (0x00 :: stationContents i s) none s) ∧
      (0x00 :: stationContents i s : List Byte).length = 58) ∧
    (n.toNat = 0 ∨ 16 < n.toNat → exec (.stationQuery r) s = .next (replied r.port 0x03 [0x12] none s))

/-- PEEK EVENTS and TAKE EVENTS return the oldest records with the number left and the overflow count; TAKE EVENTS removes
them and PEEK EVENTS does not, so that it leaves the whole queue; neither changes anything else; a count outside 1..8 is
refused, and TAKE EVENTS on the monitor port is answered READ_ONLY. -/
def Obligations.EventsPeekedAndTaken : Prop :=
  ∀ (r : Request) (s : State) (n : Byte), Taken r s → r.body = [n] →
    let reply (left : Nat) : List Byte :=
      0x00 :: eventContents (s.events.queue.take n.toNat) left s.events.overflow
    (1 ≤ n.toNat ∧ n.toNat ≤ 8 →
      exec (.peekEvents r) s = .next (replied r.port 0x08 (reply s.events.queue.length) none s) ∧
      (r.port = .control → exec (.takeEvents r) s = .next (replied r.port 0x19
        (reply (s.events.queue.length - min n.toNat s.events.queue.length)) none
        { s with events := { s.events with queue := s.events.queue.drop n.toNat } }))) ∧
    (n.toNat = 0 ∨ 8 < n.toNat →
      exec (.peekEvents r) s = .next (replied r.port 0x08 [0x12] none s) ∧
      (r.port = .control → exec (.takeEvents r) s = .next (replied r.port 0x19 [0x12] none s))) ∧
    (r.port = .monitor → exec (.takeEvents r) s = .next (replied r.port 0x19 [0x17] none s))

/-! ### Stations -/


/-- START of a STANDBY station outside TRIPPED: PRODUCING at its start or manual opening, with its counts and mark cleared;
refused with WRONG_MODE in TRIPPED, WRONG_STATE in any other state, and BAD_VALUE for a number that is no station's. In IDLE no
other station is touched. -/
def Obligations.StartProduces : Prop :=
  RefusesOtherNumbers .start 1 ∧
  ∀ (r : Request) (s : State) (i : StationIx) (n : Byte), TakenControl r s → r.body = [n, 1] → n.toNat = i.val + 1 →
    ((s.work i).state = .standby → s.bank.mode ≠ .tripped →
      ∃ t, exec (.start r) s = .next t ∧ Answered 0x11 .ok t ∧ OnlyTable s t ∧ StandsAs i .producing s t ∧
        (Drivable i s → (t.work i).target = clampTarget (s.cfg i) .producing (s.cfg i).startOpening) ∧
        (t.work i).quarantineCount = 0 ∧ (t.work i).recoveryRun = 0 ∧ (t.work i).restartMark = false ∧
        (∀ j, t.cfg j = s.cfg j) ∧ (s.bank.mode = .idle → ∀ j, j ≠ i → t.work j = s.work j)) ∧
    (s.bank.mode = .tripped → exec (.start r) s = .next (replied .control 0x11 [0x13] none s)) ∧
    (s.bank.mode ≠ .tripped → (s.work i).state ≠ .standby →
      exec (.start r) s = .next (replied .control 0x11 [0x14] none s))

/-- STOP of a PRODUCING or QUARANTINED station: STANDBY at target 0, with its quarantine count kept and its sample and claim
given up; refused in any other state, and for a number that is no station's. -/
def Obligations.StationStopStandsBy : Prop :=
  RefusesOtherNumbers .stationStop 2 ∧
  ∀ (r : Request) (s : State) (i : StationIx) (n : Byte), TakenControl r s → r.body = [n, 2] → n.toNat = i.val + 1 →
    ((s.work i).state.active = true →
      ∃ t, exec (.stationStop r) s = .next t ∧ Answered 0x11 .ok t ∧ OnlyTable s t ∧ StandsAs i .standby s t ∧
        (t.work i).target = 0 ∧ (t.work i).recoveryRun = 0 ∧
        (t.work i).quarantineCount = (s.work i).quarantineCount ∧
        t.sampler.inFlight.bind (fun m => m.source.station?) ≠ some i ∧
        t.sampler.claim17 ≠ some i ∧ t.sampler.claim18 ≠ some i ∧
        (∀ j, t.cfg j = s.cfg j) ∧ (s.bank.mode = .idle → ∀ j, j ≠ i → t.work j = s.work j)) ∧
    ((s.work i).state.active = false → exec (.stationStop r) s = .next (replied .control 0x11 [0x14] none s))

/-- ISOLATE of an assigned, undamaged station: ISOLATED at target 0 with its mark cleared, and the sampler gives up its
entry, its sample and its claim; refused otherwise, and for a number that is no station's. -/
def Obligations.IsolateTakesStationOut : Prop :=
  RefusesOtherNumbers .isolate 3 ∧
  ∀ (r : Request) (s : State) (i : StationIx) (n : Byte), TakenControl r s → r.body = [n, 3] → n.toNat = i.val + 1 →
    ((s.work i).state.assigned = true → (s.work i).damaged = false →
      ∃ t, exec (.isolate r) s = .next t ∧ Answered 0x11 .ok t ∧ OnlyTable s t ∧ (t.work i).state = .isolated ∧
        (t.work i).target = 0 ∧ (t.work i).recoveryRun = 0 ∧ (t.work i).restartMark = false ∧
        (t.work i).quarantineCount = (s.work i).quarantineCount ∧
        ((s.work i).state ≠ .isolated →
          i ∉ t.sampler.demand ∧ t.sampler.inFlight.bind (fun m => m.source.station?) ≠ some i ∧
          t.sampler.claim17 ≠ some i ∧ t.sampler.claim18 ≠ some i) ∧
        (∀ j, t.cfg j = s.cfg j) ∧ (s.bank.mode = .idle → ∀ j, j ≠ i → t.work j = s.work j)) ∧
    ((s.work i).state.assigned = false ∨ (s.work i).damaged = true →
      exec (.isolate r) s = .next (replied .control 0x11 [0x14] none s))

/-- RELEASE of an ISOLATED station: STANDBY, with its target, its configuration, its quality result and the whole drive as
they were, so that no move is requested and a motion runs on; refused in any other state, and for a number that is no
station's. -/
def Obligations.ReleaseStandsBy : Prop :=
  RefusesOtherNumbers .release 4 ∧
  ∀ (r : Request) (s : State) (i : StationIx) (n : Byte), TakenControl r s → r.body = [n, 4] → n.toNat = i.val + 1 →
    ((s.work i).state = .isolated →
      ∃ t, exec (.release r) s = .next t ∧ Answered 0x11 .ok t ∧ OnlyTable s t ∧ t.drive = s.drive ∧
        t.work i = { s.work i with state := .standby } ∧ (TargetsClamped s → (t.work i).target = 0) ∧
        (∀ j, t.cfg j = s.cfg j) ∧ (∀ j, j ≠ i → t.work j = s.work j)) ∧
    ((s.work i).state ≠ .isolated → exec (.release r) s = .next (replied .control 0x11 [0x14] none s))

/-- CLEAR FAULT of a FAULTED, undamaged station whose position is present: STANDBY, with a move to 0 passed: completed at
once, queued, or in progress. The refusals come in their order, behind that of a number that is no station's. -/
def Obligations.ClearFaultStandsBy : Prop :=
  RefusesOtherNumbers .clearFault 5 ∧
  ∀ (r : Request) (s : State) (i : StationIx) (n : Byte), TakenControl r s → r.body = [n, 5] → n.toNat = i.val + 1 →
    (∀ c p, (s.work i).state = .faulted c → (s.work i).damaged = false → (s.work i).position = some p →
      ∃ t, exec (.clearFault r) s = .next t ∧ Answered 0x11 .ok t ∧ OnlyTable s t ∧ (t.work i).state = .standby ∧
        (t.work i).target = (s.work i).target ∧ (t.work i).fresh = false ∧ (∀ j, t.cfg j = s.cfg j) ∧
        (5 < p → s.bank.mode = .idle → motionOf s i = none → ⟨i, 0⟩ ∈ t.drive.queue) ∧
        (p ≤ 5 → queued s i = false → motionOf s i = none → (s.work i).target = 0 →
          (t.work i).lastMoveDone = some (bankClock s))) ∧
    ((s.work i).state.isFaulted = false ∨ (s.work i).damaged = true →
      exec (.clearFault r) s = .next (replied .control 0x11 [0x14] none s)) ∧
    ((s.work i).state.isFaulted = true → (s.work i).damaged = false → (s.work i).position = none →
      exec (.clearFault r) s = .next (replied .control 0x11 [0x16] none s))

/-- UNASSIGN of a STANDBY station: UNUSED, its configuration at the defaults, its working fields cold but for the position;
the drive is left as it was; refused in any other state, and for a number that is no station's. -/
def Obligations.UnassignReturnsDefaults : Prop :=
  RefusesOtherNumbers .unassign 6 ∧
  ∀ (r : Request) (s : State) (i : StationIx) (n : Byte), TakenControl r s → r.body = [n, 6] → n.toNat = i.val + 1 →
    ((s.work i).state = .standby →
      ∃ t, exec (.unassign r) s = .next t ∧ Answered 0x11 .ok t ∧ OnlyTable s t ∧ t.drive = s.drive ∧
        t.cfg i = StationConfig.default ∧
        t.work i = { StationWork.cold with position := (s.work i).position } ∧ i ∉ t.sampler.demand ∧
        t.sampler.sweepList = s.sampler.sweepList ∧ sampleable t i = false ∧
        (∀ j, j ≠ i → t.station j = s.station j)) ∧
    ((s.work i).state ≠ .standby → exec (.unassign r) s = .next (replied .control 0x11 [0x14] none s))

/-- PIN and UNPIN of an assigned station set the field, and the clamp is applied again; a field that is so already changes
nothing; an UNUSED station is refused, and so is a number that is no station's. -/
def Obligations.PinAndUnpin : Prop :=
  RefusesOtherNumbers .pin 7 ∧ RefusesOtherNumbers .unpin 8 ∧
  ∀ (r : Request) (s : State) (i : StationIx) (n op : Byte) (c : Instr) (v : Bool), TakenControl r s →
    r.body = [n, op] → n.toNat = i.val + 1 → (op = 7 ∧ c = .pin r ∧ v = true) ∨ (op = 8 ∧ c = .unpin r ∧ v = false) →
    ((s.work i).state.assigned = true → (s.cfg i).pinned ≠ v →
      ∃ t, exec c s = .next t ∧ Answered 0x11 .ok t ∧ OnlyTable s t ∧ t.cfg i = { s.cfg i with pinned := v } ∧
        (Drivable i s → (t.work i).state = (s.work i).state ∧
          (t.work i).target = clampTarget { s.cfg i with pinned := v } (s.work i).state (s.work i).target) ∧
        (∀ j, j ≠ i → t.cfg j = s.cfg j) ∧ (s.bank.mode = .idle → ∀ j, j ≠ i → t.work j = s.work j)) ∧
    ((s.work i).state.assigned = true → (s.cfg i).pinned = v →
      exec c s = .next (replied .control 0x11 [0x00] none s)) ∧
    ((s.work i).state.assigned = false → exec c s = .next (replied .control 0x11 [0x14] none s))

/-- SAMPLE NOW: BAD_VALUE for a number that is no station's, refused for a station that is not sampleable, OK with no second
entry, refused by a full queue, and else an entry that waits or, in an IDLE sampler with no other entry and no parked result,
a sample of the station. -/
def Obligations.SampleNowAddsDemand : Prop :=
  (∀ (r : Request) (s : State) (n : Byte), TakenControl r s → r.body = [n, 9] → n.toNat = 0 ∨ 16 < n.toNat →
    exec (.sampleNow r) s = .next (replied .control 0x11 [0x12] none s)) ∧
  ∀ (r : Request) (s : State) (i : StationIx) (n : Byte), TakenControl r s → r.body = [n, 9] → n.toNat = i.val + 1 →
    (sampleable s i = false → exec (.sampleNow r) s = .next (replied .control 0x11 [0x14] none s)) ∧
    (sampleable s i = true → i ∈ s.sampler.demand →
      exec (.sampleNow r) s = .next (replied .control 0x11 [0x00] none s)) ∧
    (sampleable s i = true → i ∉ s.sampler.demand → 6 ≤ s.sampler.demand.length →
      exec (.sampleNow r) s = .next (replied .control 0x11 [0x15] none s)) ∧
    (sampleable s i = true → i ∉ s.sampler.demand → s.sampler.demand.length < 6 →
      (s.sampler.phase ≠ .idle ∨ s.sampler.parked.isSome = true →
        exec (.sampleNow r) s = .next (replied .control 0x11 [0x00] none
          { s with sampler := { s.sampler with demand := s.sampler.demand ++ [i] } })) ∧
      (s.sampler.phase = .idle → s.sampler.parked = none → s.sampler.demand = [] →
        ∃ t m, exec (.sampleNow r) s = .next t ∧ Answered 0x11 .ok t ∧
          t = { s with sampler := t.sampler, control := t.control } ∧
          t.sampler.phase = .purging ∧ t.sampler.inFlight = some m ∧ m.source = .demand i ∧
          m.line = lineInUse s i ∧ m.due = s.elapsed + 2000 ∧ t.sampler.demand = []))

/-- STATION SET of an UNUSED station with a complete result assigns it: STANDBY, every working field cold, the manual
opening clamped; a result that is not complete is refused and changes nothing. -/
def Obligations.StationSetAssigns : Prop :=
  ∀ (r : Request) (s : State) (i : StationIx) (n : Byte) (rest : List Byte), TakenControl r s →
    r.body = n :: rest → n.toNat = i.val + 1 → rest.length % 3 = 0 → itemsOk stationItemOk (itemsOf rest) = true →
    (s.work i).state = .unused →
    let c := StationConfig.default.carry (itemsOf rest)
    (c.k ≠ 0 → c.vMin ≤ c.startOpening → c.startOpening ≤ c.vMax →
      ∃ t, exec (.stationSet r) s = .next t ∧ t.cfg i = c.clampManual ∧ (t.cfg i).complete = true ∧
        (t.work i).state = .standby ∧ (t.work i).target = 0 ∧ (t.work i).damaged = false ∧
        (t.work i).quality = none ∧ (t.work i).flow = FlowRecord.cold ∧
        Answered 0x10 (if c.clampManual.manualOpening = c.manualOpening then .ok else .clamped) t ∧
        t.settings = s.settings ∧ t.measure = s.measure ∧ t.balancer = s.balancer ∧ t.link = s.link ∧
        t.memory = s.memory ∧ t.pins = s.pins ∧ t.elapsed = s.elapsed ∧ (∀ j, j ≠ i → t.cfg j = s.cfg j)) ∧
    (c.k = 0 ∨ c.startOpening < c.vMin ∨ c.vMax < c.startOpening →
      exec (.stationSet r) s = .next (replied .control 0x10 [0x12] none s))

/-- STATION SET with items on an assigned station stores them, and the clamp is applied again to the present target; a lowered
recovery count meets a standing run; a full set clears a damaged mark and one of some fields leaves it, and a FAULTED station
stays so. Refused, with nothing changed: a number that is no station's, an item that may not stand, and a result whose
openings do not fit. -/
def Obligations.StationSetReclamps : Prop :=
  ∀ (r : Request) (s : State) (n : Byte) (rest : List Byte), TakenControl r s → r.body = n :: rest → rest.length % 3 = 0 →
    let items := itemsOf rest
    let badValue : Result := .next (replied .control 0x10 [0x12] none s)
    (n.toNat = 0 ∨ 16 < n.toNat → exec (.stationSet r) s = badValue) ∧
    (itemsOk stationItemOk items = false → exec (.stationSet r) s = badValue) ∧
    ∀ i : StationIx, n.toNat = i.val + 1 → itemsOk stationItemOk items = true → (s.work i).state.assigned = true →
      let c := (s.cfg i).carry items
      let full : Bool := carriesAll items stationCodes
      (rest = [] → exec (.stationSet r) s = .next (replied .control 0x10 [0x00] none s)) ∧
      (rest ≠ [] → c.vMax < c.vMin ∨ c.startOpening < c.vMin ∨ c.vMax < c.startOpening →
        exec (.stationSet r) s = badValue) ∧
      (rest ≠ [] → c.vMin ≤ c.startOpening → c.startOpening ≤ c.vMax → (full = true → c.k ≠ 0) →
        ∃ t, exec (.stationSet r) s = .next t ∧ t.cfg i = c.clampManual ∧
          Answered 0x10 (if c.clampManual.manualOpening = c.manualOpening then .ok else .clamped) t ∧
          (t.work i).damaged = ((s.work i).damaged && !full) ∧
          (t.work i).quarantineCount = (s.work i).quarantineCount ∧
          t.settings = s.settings ∧ t.measure = s.measure ∧ t.balancer = s.balancer ∧ t.link = s.link ∧
          t.memory = s.memory ∧ t.pins = s.pins ∧ t.elapsed = s.elapsed ∧ (∀ j, j ≠ i → t.cfg j = s.cfg j) ∧
          (∀ cause, (s.work i).state = .faulted cause → (t.work i).state = .faulted cause ∧ (t.work i).target = 0) ∧
          ((s.work i).damaged = false → NoTripDue s → Drivable i s →
            t.bank = s.bank ∧ (t.work i).state = (s.work i).state ∧
            (t.work i).target = clampTarget c.clampManual (s.work i).state (s.work i).target ∧
            (t.work i).recoveryRun = (if (s.work i).state = .quarantined ∧ c.recoveryCount ≤ (s.work i).recoveryRun
              then c.recoveryCount - 1 else (s.work i).recoveryRun)))

/-! ### The sampler's requests -/

/-- SWEEP SET replaces the whole list and LINE SET stores the classes named; a bad entry or pair changes nothing. -/
def Obligations.SweepAndLineSet : Prop :=
  ∀ (r : Request) (s : State), TakenControl r s →
    (∀ l, r.body.length ≤ 32 → r.body.map BitVec.toNat = l.map stationNumber →
      ∃ t, exec (.sweepSet r) s = .next t ∧ Answered 0x12 .ok t ∧ t.sampler.sweepList = l ∧
        t = { s with sampler := t.sampler, control := t.control } ∧
        t.sampler.marks = s.sampler.marks ∧ t.sampler.classes = s.sampler.classes ∧
        (s.sampler.phase ≠ .idle →
          t.sampler = { s.sampler with sweepEntries := t.sampler.sweepEntries, pointer := 0, passSampled := false }) ∧
        ∀ k : Fin 32, t.sampler.sweepEntries[k.val] = l[k.val]?) ∧
    (r.body.length ≤ 32 → (∃ b ∈ r.body, b.toNat = 0 ∨ 16 < b.toNat) →
      exec (.sweepSet r) s = .next (replied .control 0x12 [0x12] none s)) ∧
    (r.body.length % 2 = 0 → linePairsOk (pairsOf r.body) = true →
      ∃ classes : Vector LineClass 19,
        exec (.lineSet r) s = .next (replied .control 0x13 [0x00] none
          { s with sampler := { s.sampler with classes := classes } }) ∧
        ∀ l : Line, ((l.val, 0) ∈ pairsOf r.body → classes[l.val] = .near) ∧
          ((l.val, 1) ∈ pairsOf r.body → classes[l.val] = .far) ∧
          ((∀ k, (l.val, k) ∉ pairsOf r.body) → classes[l.val] = s.sampler.classes[l.val])) ∧
    (r.body.length % 2 = 0 → linePairsOk (pairsOf r.body) = false →
      exec (.lineSet r) s = .next (replied .control 0x13 [0x12] none s))

/-- CLEAR LINE clears one mark and releases the claim of the station whose own line it is; CLEAR ANALYSER zeroes the count,
clears the condition and frees a PAUSED sampler. -/
def Obligations.ClearLineAndAnalyser : Prop :=
  ∀ (r : Request) (s : State), TakenControl r s →
    (∀ (l : Line) (n : Byte), r.body = [n] → n.toNat = l.val →
      ∃ t, exec (.clearLine r) s = .next t ∧ Answered 0x14 .ok t ∧
        t = { s with sampler := t.sampler, control := t.control } ∧
        t.sampler.marks = s.sampler.marks.set l.val false ∧
        (∀ i : StationIx, l.val = i.val + 1 → s.sampler.marks[l.val] = true →
          t.sampler.claim17 ≠ some i ∧ t.sampler.claim18 ≠ some i)) ∧
    (∀ n : Byte, r.body = [n] → 18 < n.toNat →
      exec (.clearLine r) s = .next (replied .control 0x14 [0x12] none s)) ∧
    (r.body = [] →
      ∃ t, exec (.clearAnalyser r) s = .next t ∧ Answered 0x15 .ok t ∧ t.sampler.faultCount = 0 ∧
        t.sampler.analyserFault = false ∧ t.sampler.marks = s.sampler.marks ∧ Kept s t ∧ t.pins = s.pins ∧
        t.elapsed = s.elapsed ∧ t.measure = s.measure ∧ t.balancer = s.balancer ∧
        (s.sampler.phase = .paused → t.sampler.phase = .idle ∨ t.sampler.phase = .purging) ∧
        (s.sampler.phase = .purging ∨ s.sampler.phase = .reading → t.sampler.phase = s.sampler.phase ∧
          t.sampler.inFlight = s.sampler.inFlight) ∧
        (s.sampler.analyserFault = true → s.events.queue.length < 24 → ∃ l, t.events.queue =
          s.events.queue ++ ⟨.analyserFault, 0, some .clear, bankClock s, none⟩ :: l))

/-! ### The bank's requests -/

/-- BANK SET checked whole: refused with BAD_VALUE by a cross check, then with WRONG_MODE by a role outside IDLE; else every
setting it carries is stored and no other, and a carried balance period restarts a running timer. -/
def Obligations.BankSetStores : Prop :=
  ∀ (r : Request) (s : State), TakenControl r s → r.body.length % 3 = 0 →
    let items := itemsOf r.body
    let result := s.settings.bank.carry items
    (itemsOk bankItemOk items = false ∨ bankCrossOk (codesOf items) result = false →
      exec (.bankSet r) s = .next (replied .control 0x16 [0x12] none s)) ∧
    (itemsOk bankItemOk items = true → bankCrossOk (codesOf items) result = true →
      (result.role ≠ s.settings.bank.role → s.bank.mode ≠ .idle →
        exec (.bankSet r) s = .next (replied .control 0x16 [0x13] none s)) ∧
      (result.role = s.settings.bank.role ∨ s.bank.mode = .idle →
        ∃ t, exec (.bankSet r) s = .next t ∧ Answered 0x16 .ok t ∧
          t.settings = { s.settings with bank := result } ∧
          (∀ it ∈ items, t.settings.bank.item it.code = it.value) ∧
          (∀ code, code ∉ codesOf items → t.settings.bank.item code = s.settings.bank.item code) ∧
          (∀ j, t.cfg j = s.cfg j) ∧ t.memory = s.memory ∧ t.elapsed = s.elapsed ∧
          (30 ∈ codesOf items → 31 ∉ codesOf items → s.bank.roundTimer.isSome = true →
            bankClock s + result.balancePeriod ≤ 4294967295 →
            t.bank.roundTimer = some (bankClock s + result.balancePeriod))))

/-- TRIP SET stores every field it carries and no other; with a field other than the pulse width the timer is stopped and
the output evaluated afresh, and with the pulse width alone nothing else changes. -/
def Obligations.TripSetEvaluates : Prop :=
  ∀ (r : Request) (s : State), TakenControl r s → r.body.length % 3 = 0 →
    let items := itemsOf r.body
    let stored := { s with settings := { s.settings with trip := s.settings.trip.carry items } }
    (itemsOk tripItemOk items = false → exec (.tripSet r) s = .next (replied .control 0x17 [0x12] none s)) ∧
    (itemsOk tripItemOk items = true → (∀ it ∈ items, it.code = 9) →
      exec (.tripSet r) s = .next (replied .control 0x17 [0x00] none stored)) ∧
    (itemsOk tripItemOk items = true → (∃ it ∈ items, it.code ≠ 9) →
      ∃ t, exec (.tripSet r) s = .next t ∧ Answered 0x17 .ok t ∧ t.settings = stored.settings ∧
        t.memory = s.memory ∧ t.measure = s.measure ∧ t.balancer = s.balancer ∧ t.pins = s.pins ∧
        t.elapsed = s.elapsed ∧ (∀ j, t.cfg j = s.cfg j) ∧
        Evaluated { stored with trip := { stored.trip with timer := none } } t)

/-- RUN, STOP, RESUME and TRIP NOW by bank mode: the mode, the isolation line, the status, and the MODE event that comes
first; and what STOP hands on: the drive empty, the sampler STOPPED, the stations in their states, and out of TRIPPED the latch
CLEAR, the lines released, the trip record kept and every restart mark cleared. -/
def Obligations.ModeRequestsFollowTable : Prop :=
  ∀ (r : Request) (s : State), TakenControl r s →
    let same (status : Byte) : Result := .next (replied .control 0x18 [status] none s)
    let becomes (c : Instr) (m : BankMode) (more : State → Prop) : Prop := ∃ t, exec c s = .next t ∧ Answered 0x18 .ok t ∧
      t.bank.mode = m ∧ (t.bank.isolation = true ↔ m = .running) ∧ t.bank.roundTimer = s.bank.roundTimer ∧
      ModeEventFirst s m t ∧ Kept s t ∧ t.pins = s.pins ∧ t.elapsed = s.elapsed ∧ t.measure = s.measure ∧
      t.balancer = s.balancer ∧ t.link = s.link ∧ more t
    let stopped (t : State) : Prop :=
      t.drive = { s.drive with queue := [], motions := [] } ∧ t.sampler = { s.sampler with phase := .stopped, inFlight := none }
    (r.body = [1] →
      (s.bank.mode = .idle → becomes (.run r) .running fun t => t.sampler.phase ≠ .stopped) ∧
      (s.bank.mode = .running → exec (.run r) s = same 0x00) ∧
      (s.bank.mode = .tripped → exec (.run r) s = same 0x13)) ∧
    (r.body = [2] →
      (s.bank.mode = .idle → exec (.modeStop r) s = same 0x00) ∧
      (s.bank.mode = .running → becomes (.modeStop r) .idle fun t =>
        stopped t ∧ t.stations = s.stations ∧ t.trip = s.trip) ∧
      (s.bank.mode = .tripped → s.trip.output = true → exec (.modeStop r) s = same 0x16) ∧
      (s.bank.mode = .tripped → s.trip.output = false →
        functionValue (leaveTripped s) = false ∨ persistenceOf s.settings.trip.persistence ≠ 0 →
        becomes (.modeStop r) .idle fun t =>
          stopped t ∧ t.trip.latch = .clear ∧ t.trip.line = .released ∧ t.trip.linkDrive = false ∧
          t.trip.record = s.trip.record ∧ ∀ i, t.work i = { s.work i with restartMark := false })) ∧
    (r.body = [3] →
      (s.bank.mode = .idle ∨ s.bank.mode = .running → exec (.resume r) s = same 0x13) ∧
      (s.bank.mode = .tripped → s.trip.output = true → exec (.resume r) s = same 0x16) ∧
      (s.bank.mode = .tripped → s.trip.output = false →
        functionValue (leaveTripped s) = false ∨ persistenceOf s.settings.trip.persistence ≠ 0 →
        becomes (.resume r) .running fun t => t.trip.latch = .clear)) ∧
    (r.body = [4] →
      (s.bank.mode = .idle ∨ s.bank.mode = .running → becomes (.tripNow r) .tripped fun t => t.trip.latch ≠ .clear) ∧
      (s.bank.mode = .tripped → exec (.tripNow r) s = same 0x13))

/-- A trip, by TRIP NOW or by the persistence timer: latch, record, lines, and every station stood down. -/
def Obligations.TripStandsDown : Prop :=
  (∀ (r : Request) (s : State), TakenControl r s → r.body = [4] → s.bank.mode ≠ .tripped →
    ∃ t, exec (.tripNow r) s = .next t ∧ Answered 0x18 .ok t ∧ TrippedFrom .command s t ∧
      latchOf s .command = .localTrip ∧ Kept s t) ∧
  (∀ (s : State) (started : Nat), Undisturbed s → s.trip.timer = some started → s.bank.mode ≠ .tripped →
    let now := passUntil (started + persistenceOf s.settings.trip.persistence) s
    ∃ t, exec .persistenceExpiry s = .next t ∧ TrippedFrom .function now t ∧ ModeEventFirst now .tripped t ∧
      Silent s t ∧ t.elapsed = now.elapsed ∧ t.measure = s.measure ∧ t.balancer = s.balancer ∧ t.link = s.link)

/-- RESUME starts every marked STANDBY station whose position is present as START would, and leaves the trip record. -/
def Obligations.ResumeRestartsMarked : Prop :=
  ∀ (r : Request) (s : State), TakenControl r s → r.body = [3] → s.bank.mode = .tripped → s.trip.output = false →
    functionValue (leaveTripped s) = false ∨ persistenceOf s.settings.trip.persistence ≠ 0 →
    ∃ t, exec (.resume r) s = .next t ∧ t.trip.latch = .clear ∧ t.trip.line = .released ∧ t.trip.linkDrive = false ∧
      t.trip.record = s.trip.record ∧ Kept s t ∧
      ∀ i : StationIx, (s.work i).state = .standby → (s.work i).position.isSome = true →
        ((s.work i).restartMark = true →
          (t.work i).state = .producing ∧ (t.work i).restartMark = false ∧ (t.work i).quarantineCount = 0 ∧
          (t.work i).target = clampTarget (s.cfg i) .producing (s.cfg i).startOpening) ∧
        ((s.work i).restartMark = false →
          (t.work i).state = .standby ∧ (t.work i).target = (s.work i).target)

/-! ### Events and memory -/

/-- NOTICE SET, CLEAR NOTICE and CAST SET: what each stores or clears, and that the event queue stands.
That a CAST SET with no item zeroes the drop count too is the model's choice (log 41, DEDUCED). -/
def Obligations.NoticeAndCastRequests : Prop :=
  ∀ (r : Request) (s : State), TakenControl r s →
    (r.body.length % 3 = 0 → itemsOk noticeItemOk (itemsOf r.body) = true →
      ∃ e, exec (.noticeSet r) s = .next (replied .control 0x1A [0x00] none
          { s with
            settings := { s.settings with notice := s.settings.notice.carry (itemsOf r.body) }
            events := e }) ∧
        e.queue = s.events.queue ∧ e.flags = s.events.flags ∧ e.overflow = s.events.overflow ∧
        e.backlog = s.events.backlog ∧
        ((s.settings.notice.carry (itemsOf r.body)).mode ≠ .frames → e.notices = [])) ∧
    (r.body.length % 3 = 0 → itemsOk noticeItemOk (itemsOf r.body) = false →
      exec (.noticeSet r) s = .next (replied .control 0x1A [0x12] none s)) ∧
    (∀ n : Byte, r.body = [n] → n.toNat ≤ 15 →
      ∃ e, exec (.clearNotice r) s = .next (replied .control 0x1B [0x00] none { s with events := e }) ∧
        e.queue = s.events.queue ∧ e.backlog = s.events.backlog ∧ e.drops = s.events.drops ∧
        (∀ c : Category, e.flags.get c = (s.events.flags.get c && !(CategorySet.ofNat n.toNat).get c)) ∧
        e.overflow = (if n.toNat.testBit 3 then 0 else s.events.overflow)) ∧
    (∀ n : Byte, r.body = [n] → 15 < n.toNat →
      exec (.clearNotice r) s = .next (replied .control 0x1B [0x12] none s)) ∧
    (r.body.length % 3 = 0 → itemsOk castItemOk (itemsOf r.body) = true →
      exec (.castSet r) s = .next (replied .control 0x1C [0x00] none
        { s with
          settings := { s.settings with cast := s.settings.cast.carry (itemsOf r.body) }
          events := { s.events with drops := 0 } })) ∧
    (r.body.length % 3 = 0 → itemsOk castItemOk (itemsOf r.body) = false →
      exec (.castSet r) s = .next (replied .control 0x1C [0x12] none s))

/-- INTEGRITY CLEAR empties the memory's record of its health and keeps the damaged marks; a pending write-back repairs its
word, and one that has been dropped does nothing. -/
def Obligations.IntegrityClearAndWriteBack : Prop :=
  (∀ (r : Request) (s : State), TakenControl r s → r.body = [] →
    ∃ t, exec (.integrityClear r) s = .next t ∧ Answered 0x1D .ok t ∧
      t.memory = { s.memory with
        corrections := 0, damageList := [], damageOverflow := 0, damagedSetting := false } ∧
      t.settings = s.settings ∧ t.pins = s.pins ∧ t.elapsed = s.elapsed ∧ (∀ i, t.cfg i = s.cfg i) ∧
      (∀ i, (t.work i).damaged = (s.work i).damaged) ∧
      Evaluated { s with memory := { s.memory with
        corrections := 0, damageList := [], damageOverflow := 0, damagedSetting := false } } t) ∧
  (∀ (w : WordIx) (s : State), s.powered = true →
    (w.val ∈ s.memory.writeBacks → ∃ m, exec (.writeBack w) s = .next { s with memory := m } ∧
      (s.memory.wf = true → wrongBitsIn m.wrongBits w.val = 0) ∧ w.val ∉ m.writeBacks ∧
      m.corrections = s.memory.corrections ∧
      (∀ v, v ≠ w.val → wrongBitsIn m.wrongBits v = wrongBitsIn s.memory.wrongBits v)) ∧
    (w.val ∉ s.memory.writeBacks → exec (.writeBack w) s = .next s))

/-- The scrub reads the word at its pointer, which then moves on: a good word changes nothing else; one wrong bit is counted
and a write-back made pending; two faulted bits leave the word good and listed, fault an assigned station whose record holds
it, leave an UNUSED one as it is, return a setting to its default, and close up the sweep list over the entries of its word.
Word 407, which gives the next interval, is read behind it (log 7): the first two clauses take it to be good or the word itself.
What else the memory holds may be found behind it, so the first event, the configuration, the settings and the sweep list are
stated for a memory with no other wrong word; and the state of the station where no word holds more than two wrong bits, which
leaves out the free values of log 6. -/
def Obligations.ScrubReads : Prop :=
  ∀ s : State, s.powered = true → MemorySound s →
    let w := s.memory.scrubPointer
    let wrong := countBits (wrongBitsIn s.memory.wrongBits w)
    let now := max s.elapsed s.memory.scrubDue
    (wrong = 0 → w = 407 ∨ wrongBitsIn s.memory.wrongBits 407 = 0 → exec .scrub s = .next { s with
      elapsed := now
      memory := { s.memory with
        scrubPointer := (w + 1) % 512, scrubDue := now + scrubInterval s.settings.bank.scrubCode } }) ∧
    (wrong = 1 → w = 407 ∨ wrongBitsIn s.memory.wrongBits 407 = 0 → exec .scrub s = .next { s with
      elapsed := now
      memory := { s.memory with
        scrubPointer := (w + 1) % 512, scrubDue := now + scrubInterval s.settings.bank.scrubCode
        corrections := min (s.memory.corrections + 1) 65535
        writeBacks := if w ∈ s.memory.writeBacks then s.memory.writeBacks else s.memory.writeBacks ++ [w] } }) ∧
    (wrong = 2 → ∃ t, exec .scrub s = .next t ∧ t.memory.scrubPointer = (w + 1) % 512 ∧ t.elapsed = now ∧
      wrongBitsIn t.memory.wrongBits w = 0 ∧
      (s.memory.damageList.length < 16 → w ∈ t.memory.damageList) ∧
      (384 ≤ w → w ≤ 409 → t.memory.damagedSetting = true) ∧
      (FewWrongBits s → ∀ i : StationIx, i.val * 24 ≤ w → w < i.val * 24 + 24 → (s.work i).state.assigned = true →
        (t.work i).state = .faulted .record ∧ (t.work i).damaged = true ∧ (t.work i).target = 0) ∧
      (FewWrongBits s → ∀ i : StationIx, i.val * 24 ≤ w → w < i.val * 24 + 24 → (s.work i).state = .unused →
        (s.work i).damaged = false → (t.work i).state = .unused ∧ (t.work i).damaged = false) ∧
      ((∀ v, v ≠ w → wrongBitsIn s.memory.wrongBits v = 0) →
        (s.events.queue.length < 24 → ∃ l, t.events.queue =
          s.events.queue ++ ⟨.recordDamaged, damageStationNumber w, none, min (now / 1000) 4294967295, some w⟩ :: l) ∧
        (∀ i : StationIx, i.val * 24 ≤ w → w < i.val * 24 + 24 →
          t.cfg i = copyConfigWord (w % 24) StationConfig.default (s.cfg i)) ∧
        (384 ≤ w → w ≤ 409 → t.settings = copySettingWord w Settings.default s.settings) ∧
        (448 ≤ w → w ≤ 455 →
          let first := 4 * (w - 448)
          let stored := s.sampler.sweepEntries.toList
          t.sampler.sweepList = stationsUpToEnd (stored.take first ++ stored.drop (first + 4)) ∧
          ((∀ k : Fin 32, s.sampler.sweepList.length ≤ k.val → s.sampler.sweepEntries[k.val] = none) →
            t.sampler.sweepList = s.sampler.sweepList.take first ++ s.sampler.sweepList.drop (first + 4)) ∧
          ∀ k : Fin 32, t.sampler.sweepEntries[k.val] =
            if k.val < first then s.sampler.sweepEntries[k.val] else t.sampler.sweepList[k.val]?)))

/-! ### Restarts -/

/-- RESTART COLD and RESTART WARM are answered OK and change nothing until the reply has been sent; a broadcast takes
effect at once. -/
def Obligations.RestartRequests : Prop :=
  ∀ (r : Request) (s : State),
    (TakenControl r s → r.body = [1] →
      exec (.restartCold r) s = .next (replied .control 0x1E [0x00] (some .cold) s)) ∧
    (TakenControl r s → r.body = [2] →
      exec (.restartWarm r) s = .next (replied .control 0x1E [0x00] (some .warm) s)) ∧
    (∀ n : Byte, TakenControl r s → r.body = [n] → n ≠ 1 → n ≠ 2 →
      exec (.restartCold r) s = .next (replied .control 0x1E [0x12] none s) ∧
      exec (.restartWarm r) s = .next (replied .control 0x1E [0x12] none s)) ∧
    (Undisturbed s → r.address = broadcast → r.port = .control →
      (r.body = [1] → ∃ t, exec (.restartCold r) s = .next t ∧ t.elapsed = 0 ∧ t.bank.mode = .idle ∧
        t.settings = Settings.default ∧ t.control = PortState.cold) ∧
      (r.body = [2] → ∃ t, exec (.restartWarm r) s = .next t ∧ t.elapsed = 0 ∧ t.settings = s.settings ∧
        t.control = PortState.cold))

/-- A cold restart at any moment leaves the values the manual gives; a loss of power drops the outputs.
That a cold restart may come at any moment is the model's choice (log 27, DEDUCED), and so is what a loss of power
leaves besides the isolation line (log 11). -/
def Obligations.ColdRestartAndPowerLoss : Prop :=
  ∀ s : State,
    (∃ t, exec .coldRestart s = .next t ∧ t.powered = true ∧ t.bank.mode = .idle ∧ bankClock t = 0 ∧
      t.bank.isolation = false ∧ (∀ i, motorOutput t i = .off) ∧ t.trip.line = .released ∧
      t.trip.linkDrive = false ∧ t.settings = Settings.default ∧ t.settings.bank.role = .alone ∧
      t.bank.roundTimer = some 120 ∧ (∀ i, t.station i = Station.cold) ∧ t.sampler.sweepList = [] ∧
      t.events = EventUnit.cold ∧ t.memory.corrections = 0 ∧ t.memory.damageList = [] ∧ t.memory.wrongBits = [] ∧
      suctionLow t = true ∧ t.pins = s.pins ∧ t.pending = s.pending) ∧
    (∃ t, exec .powerLoss s = .next t ∧ t.powered = false ∧ t.bank.isolation = false ∧
      (∀ i, motorOutput t i = .off) ∧ t.trip.line = .released ∧ t.trip.linkDrive = false ∧
      t.link.markDrive = false ∧ attentionActive t = false ∧ t.pins = s.pins ∧ t.pending = s.pending)

/-- A warm restart keeps what has been configured, the damaged marks and the memory's record of its health, and clears all
working state. The flag that makes it due is the model's choice (log 27, DEDUCED). The premises leave out a trip at the
restart itself and damage found in the settings it starts the part with (log 7). -/
def Obligations.WarmRestartKeeps : Prop :=
  ∀ s : State, s.powered = true → s.restartDue = some .warm →
    NoTripDue (warmRestartBare s) → (∀ w, 403 ≤ w → w ≤ 407 → wrongBitsIn s.memory.wrongBits w = 0) →
    ∃ t, exec .warmRestart s = .next t ∧ t.settings = s.settings ∧ (∀ i, t.cfg i = s.cfg i) ∧
      (∀ i, t.work i = { StationWork.cold with
        state := (if (s.work i).state = .unused then .unused
          else if (s.work i).damaged then .faulted .record else .standby)
        damaged := (s.work i).damaged }) ∧
      t.bank.mode = .idle ∧ t.bank.isolation = false ∧ t.elapsed = 0 ∧ t.conversionDue = 1000 ∧
      t.bank.roundTimer = (if s.settings.bank.role = .slave then none else some s.settings.bank.balancePeriod) ∧
      t.measure = Measurement.cold ∧ t.sampler = Sampler.cold s.sampler.sweepEntries s.sampler.classes ∧
      t.drive = Drive.cold ∧ t.balancer = Balancer.cold ∧ t.events = EventUnit.cold ∧
      t.control = PortState.cold ∧ t.monitor = PortState.cold ∧ t.address = addressOf s.pins.straps ∧
      t.link.state = .inStep ∧ t.link.hold = false ∧ t.link.lastMark = none ∧ t.link.inStepSince = 0 ∧
      t.link.markDrive = false ∧ t.link.markPulseEnd = none ∧
      t.link.markSince = (if s.settings.bank.role = .slave ∧ s.pins.markActive = true then some 0 else none) ∧
      t.trip.latch = .clear ∧ t.trip.record = none ∧ t.trip.line = .released ∧ t.trip.linkDrive = false ∧
      t.trip.output = functionValue t ∧ t.trip.timer = (if t.trip.output = true then some 0 else none) ∧
      t.memory.corrections = s.memory.corrections ∧ t.memory.damageList = s.memory.damageList ∧
      t.memory.damageOverflow = s.memory.damageOverflow ∧ t.memory.damagedSetting = s.memory.damagedSetting ∧
      t.memory.scrubPointer = 0 ∧ t.memory.scrubDue = scrubInterval s.settings.bank.scrubCode ∧
      t.memory.writeBacks = [] ∧ t.powered = true ∧ t.restartDue = none ∧ t.pins = s.pins ∧ t.pending = s.pending

/-! ### The field -/

/-- A conversion rewrites the input table by the four code ranges, raises the events of the loops that break or are made good
(in ascending input number, log 16) and stores every position; an absent one faults a station at rest. Each flow window is
discarded as invalid on a FAULT status, goes on with one value more, or ends with its record; outside a hold the record is
stored, and an invalid one, which takes the window time too (log 17), faults a station that is sampled, and in a hold it is
parked. That the next conversion is due one second later is log 1. -/
def Obligations.ConversionHandsOn : Prop :=
  ∀ (codes : Vector Code 35) (s : State), Undisturbed s →
    ∃ t, exec (.conversion codes) s = .next t ∧ t.elapsed = conversionInstant s ∧
      t.conversionDue = t.elapsed + 1000 ∧
      (∀ k : Fin 35, let c := codes[k.val].toNat
        let e := t.measure.inputs[k.val]
        e.code = c ∧ e.time = bankClock t ∧
        (c ≤ 736 → e.status = .fault ∧ ∀ span, inputValue span e = none) ∧
        (737 ≤ c → c ≤ 818 → e.status = .zero ∧ ∀ span, inputValue span e = some 0) ∧
        (819 ≤ c → c ≤ 4094 → e.status = .good ∧ ∀ span, inputValue span e = some ((c - 819) * span / 3276)) ∧
        (c = 4095 → e.status = .saturated ∧ ∀ span, inputValue span e = some span)) ∧
      (∀ i : StationIx, (t.work i).position = inputValue 1000 t.measure.inputs[i.val + 16]) ∧
      (let edge (kind : EventKind) (i : StationIx) (old : InputStatus) (c : Nat) : Option EventRecord :=
          if (s.work i).state = .unused ∨ (old = .fault ↔ c ≤ 736) then none
          else some ⟨kind, i.val + 1, some (if c ≤ 736 then .set else .clear), bankClock t, some c⟩
        let edges := allStations.filterMap (fun i => edge .flowLine i s.measure.inputs[i.val].status codes[i.val].toNat) ++
          allStations.filterMap fun i => edge .positionLine i s.measure.inputs[i.val + 16].status codes[i.val + 16].toNat
        s.events.queue.length + edges.length ≤ 24 → ∃ l, t.events.queue = s.events.queue ++ edges ++ l) ∧
      (∀ i : StationIx,
        let c := codes[i.val].toNat
        let ends (r : WindowResult) (f : FlowRecord) : Prop := t.measure.windows[i.val] = none ∧
          (s.link.hold = true → t.measure.parked[i.val] = some r ∧ (t.work i).flow = (s.work i).flow) ∧
          (s.link.hold = false → t.measure.parked[i.val] = s.measure.parked[i.val] ∧ (t.work i).flow = f)
        (c ≤ 736 → ends (.invalid (bankClock t)) { (s.work i).flow with valid := false, time := bankClock t }) ∧
        (∀ v, inputValue 4000 t.measure.inputs[i.val] = some v →
          let w : FlowWindow := match s.measure.windows[i.val] with
            | none => ⟨v, 1, s.settings.bank.windowLength, c = 4095⟩
            | some w => { w with sum := w.sum + v, count := w.count + 1, saturated := w.saturated || c = 4095 }
          (w.count < w.length → t.measure.windows[i.val] = some w ∧
            t.measure.parked[i.val] = s.measure.parked[i.val] ∧ (t.work i).flow = (s.work i).flow) ∧
          (w.length ≤ w.count → ∀ q dp sat clamped,
            windowRecord (s.cfg i).k (((s.work i).quality.map QualityResult.c).getD 0) w (bankClock t) =
              .valid q dp sat clamped (bankClock t) →
            ends (.valid q dp sat clamped (bankClock t)) ⟨q, dp, sat, clamped, bankClock t, true⟩)) ∧
        (codes[i.val + 16].toNat ≤ 736 → (s.work i).state = .standby ∨ (s.work i).state.active = true →
          motionStatus s i = .none ∨ motionStatus s i = .queued ∧ s.bank.mode = .idle →
          (t.work i).state = .faulted .positionLine ∧ (t.work i).target = 0 ∧ motionStatus t i = .none) ∧
        (c ≤ 736 → 736 < codes[i.val + 16].toNat → s.link.hold = false → (s.work i).state.active = true →
          motionStatus s i = .none → (t.work i).state = .faulted .flowLine ∧ (t.work i).target = 0)) ∧
      t.trip.output = functionValue t ∧ Silent s t ∧ t.link = s.link ∧ t.balancer = s.balancer

/-- A change of a contact or of the shared TRIP line is taken, and the trip function evaluated. -/
def Obligations.ContactsEvaluate : Prop :=
  ∀ (s : State) (b : Bool) (c : Instr) (p : Pins), Undisturbed s →
    (c = .pumpRunContact b ∧ p = { s.pins with pumpOpen := b }) ∨
      (c = .arrestorContact b ∧ p = { s.pins with arrestorClosed := b }) ∨
      (c = .tripLineSensed b ∧ p = { s.pins with tripLineOthers := b }) →
    ∃ t, exec c s = .next t ∧ t.pins = p ∧ Evaluated { s with pins := p } t ∧ Kept s t ∧ t.elapsed = s.elapsed ∧
      t.measure = s.measure ∧ t.balancer = s.balancer ∧ t.link = s.link

/-- The edges of MARK by role, link state and hold (R179, R182), with the whole of what each leaves. On a SLAVE in step a rise
begins the hold, and a fall in the hold is the round event, whose adjustments reach the stations, and ends it; on a LOST SLAVE a
rise is timed, and a fall within 10 s of it brings the SLAVE back; any other edge moves the level and the mark watch alone. It is
the model's choice that an edge the line cannot have changes nothing (log 28), and that a LOST SLAVE times a rise and records it
as its last mark (log 24, DEDUCED). -/
def Obligations.MarkEdges : Prop :=
  ∀ s : State, Undisturbed s →
    let risen : Pins := { s.pins with markActive := true }
    let fallen : Pins := { s.pins with markActive := false }
    (s.pins.markActive = true → exec .markRise s = .next s) ∧
    (s.pins.markActive = false →
      (s.settings.bank.role ≠ .slave → exec .markRise s = .next { s with pins := risen }) ∧
      (s.settings.bank.role = .slave → s.link.state = .inStep →
        exec .markRise s = .next { s with
          pins := risen
          link := { s.link with markSince := some s.elapsed, lastMark := some (bankClock s), hold := true } }) ∧
      (s.settings.bank.role = .slave → s.link.state = .lost →
        exec .markRise s = .next { s with
          pins := risen
          link := { s.link with markSince := some s.elapsed, lastMark := some (bankClock s) } })) ∧
    (s.pins.markActive = false → exec .markFall s = .next s) ∧
    (s.pins.markActive = true →
      (s.settings.bank.role ≠ .slave → exec .markFall s = .next { s with pins := fallen }) ∧
      (s.settings.bank.role = .slave → s.link.state = .inStep → s.link.hold = false →
        exec .markFall s = .next { s with pins := fallen, link := { s.link with markSince := none } }) ∧
      (s.settings.bank.role = .slave → s.link.state = .inStep → s.link.hold = true →
        ∃ t, exec .markFall s = .next t ∧ Kept s t ∧ t.pins = fallen ∧ t.elapsed = s.elapsed ∧
          t.link = { s.link with hold := false, markSince := none } ∧ t.balancer.lastRound = some (roundRecord s) ∧
          t.balancer.purityLow = purityLowAfter s (roundRecord s) ∧
          t.balancer.o2High = o2HighAfter s (roundRecord s) ∧
          t.bank.roundTimer = s.bank.roundTimer ∧ t.control = s.control ∧ t.monitor = s.monitor ∧
          RoundReachesTable s t ∧ t.sampler.parked = none ∧ ∀ i : StationIx, t.measure.parked[i.val] = none) ∧
      (s.settings.bank.role = .slave → s.link.state = .lost →
        (∀ since, s.link.markSince = some since → since + 10000 < s.elapsed) →
        exec .markFall s = .next { s with pins := fallen, link := { s.link with markSince := none } }) ∧
      (∀ since, s.settings.bank.role = .slave → s.link.state = .lost → s.link.markSince = some since →
        s.elapsed ≤ since + 10000 →
        ∃ t, exec .markFall s = .next t ∧
          t = { s with
            pins := fallen
            link := { s.link with markSince := none, state := .inStep, inStepSince := bankClock s }
            bank := { s.bank with roundTimer := none }
            events := t.events } ∧
          (s.events.queue.length < 24 → t.events.queue =
            s.events.queue ++ [⟨.linkBack, 0, none, bankClock s, none⟩])))

/-- The timers of the link: a MASTER's lead drives MARK and begins its hold, its 0.1 s pulse ends, and a SLAVE that is out of
step becomes LOST and starts its own timer. -/
def Obligations.LinkTimers : Prop :=
  ∀ s : State, Undisturbed s →
    (∀ e, s.bank.roundTimer = some e → s.settings.bank.role = .master → s.link.hold = false →
      s.settings.bank.holdLead ≠ 0 →
      let now := max s.elapsed (e * 1000 - s.settings.bank.holdLead * 500)
      exec .markLead s = .next { s with
        elapsed := now
        link := { s.link with
          markDrive := true, hold := true, lastMark := some (min (now / 1000) 4294967295), markPulseEnd := none } }) ∧
    (∀ e, s.link.markPulseEnd = some e →
      exec .markPulseEnd s = .next { s with
        elapsed := max s.elapsed e, link := { s.link with markDrive := false, markPulseEnd := none } }) ∧
    (∀ at_ cause, s.settings.bank.role = .slave → s.link.state = .inStep → lossDue s = some (at_, cause) →
      let now := max s.elapsed at_
      ∃ t, exec .linkLost s = .next t ∧ t.link.state = .lost ∧ t.link.hold = false ∧ t.elapsed = now ∧
        t.balancer = s.balancer ∧ Silent s t ∧ (s.link.hold = true → t.sampler.parked = none) ∧
        (min (now / 1000) 4294967295 + s.settings.bank.balancePeriod ≤ 4294967295 →
          t.bank.roundTimer = some (min (now / 1000) 4294967295 + s.settings.bank.balancePeriod)) ∧
        (s.link.hold = false → s.events.queue.length < 24 → ∃ l, t.events.queue =
          s.events.queue ++ ⟨.linkLost, 0, none, min (now / 1000) 4294967295, some cause⟩ :: l))

/-- At the round timer's expiry the round event is taken whole: the balancer's record and conditions, and each adjustment at its
station, with its move in hand; no other station is moved. The next expiry is set one period on, and a hold ends with the
round. -/
def Obligations.RoundTimerExpiry : Prop :=
  ∀ (s : State) (e : Nat), Undisturbed s → s.bank.roundTimer = some e →
    let now := passUntil (e * 1000) s
    ∃ t, exec .roundTimerExpiry s = .next t ∧ t.elapsed = now.elapsed ∧
      t.balancer.lastRound = some (roundRecord now) ∧
      t.balancer.purityLow = purityLowAfter now (roundRecord now) ∧
      t.balancer.o2High = o2HighAfter now (roundRecord now) ∧
      (t.balancer.shortfall = true ↔ (roundRecord now).outcome = .shortfall) ∧
      (bankClock now + s.settings.bank.balancePeriod ≤ 4294967295 →
        t.bank.roundTimer = some (bankClock now + s.settings.bank.balancePeriod)) ∧
      (s.link.hold = true → t.link.hold = false) ∧ RoundReachesTable now t ∧ Silent s t

/-! ### Samples -/

/-- The course of a sample: the changeover ends; a valid reading that is not the last is summed; no flow at the first reading
marks the line, and the station claims its spare line or is faulted; and an invalid reading, by the contact or by a FAULT
status of a loop, counts toward PAUSED. -/
def Obligations.SampleCourse : Prop :=
  ∀ (s : State) (m : Sample), Undisturbed s → s.sampler.inFlight = some m →
    let now := max s.elapsed m.due
    let atReading (first : Bool) : Prop :=
      if first then s.sampler.phase = .purging ∧ m.start.isSome = true else s.sampler.phase = .reading
    let lineFault : EventRecord :=
      ⟨.lineFault, sourceNumber m.source, none, min (now / 1000) 4294967295, some m.line.val⟩
    (s.sampler.phase = .purging → m.start = none →
      exec .changeoverEnd s = .next { s with
        elapsed := now
        sampler := { s.sampler with inFlight := some { m with
          start := some (min (now / 1000) 4294967295), due := now + m.purge * 1000 } } }) ∧
    (∀ (first : Bool) (c o : Nat), analyserValue 33 s = some c → analyserValue 34 s = some o →
      m.taken + 1 < m.readings → NoTripDue s → atReading first →
      ∃ t, exec (if first then .purgeEnd true false else .reading false) s = .next t ∧
        t.sampler = { s.sampler with
          phase := .reading
          inFlight := some { m with
            taken := m.taken + 1, methaneSum := m.methaneSum + c, oxygenSum := m.oxygenSum + o
            saturated := m.saturated || analyserSaturated 33 s || analyserSaturated 34 s
            due := now + 2000 } } ∧ t.elapsed = now ∧ t.stations = s.stations ∧ t.drive = s.drive ∧
        t.events = s.events ∧ Silent s t) ∧
    (∀ fault, atReading true →
      ∃ t, exec (.purgeEnd false fault) s = .next t ∧ t.sampler.marks[m.line.val] = true ∧
        t.sampler.faultCount = s.sampler.faultCount ∧ Silent s t ∧ t.elapsed = now ∧
        (s.events.queue.length < 24 → ∃ l, t.events.queue = s.events.queue ++ lineFault :: l) ∧
        (m.source = .reference → NoTripDue s → t.stations = s.stations) ∧
        ∀ i : StationIx, m.source.station? = some i →
          (∀ l, (s.work i).state.active = true → SpareOpen s i m.line l → NoTripDue s →
            s.sampler.claim17 ≠ some i → s.sampler.claim18 ≠ some i →
            t.stations = s.stations ∧ lineInUse t i = l.line ∧
            (s.events.queue.length < 23 → ∃ rest, t.events.queue = s.events.queue ++
              lineFault :: ⟨.substituted, i.val + 1, none, min (now / 1000) 4294967295, some l.line.val⟩ :: rest) ∧
            (s.sampler.demand = [] → s.sampler.parked = none →
              ∃ m', t.sampler.inFlight = some m' ∧ m'.source = .demand i ∧ m'.line = l.line)) ∧
          ((s.work i).state.active = true → (∀ l, ¬ SpareOpen s i m.line l) →
            (t.work i).state = .faulted .sampleLine ∧ (t.work i).target = 0 ∧
            t.sampler.claim17 ≠ some i ∧ t.sampler.claim18 ≠ some i) ∧
          ((s.work i).state.active = false → NoTripDue s → t.stations = s.stations)) ∧
    (∀ first fault : Bool, atReading first →
      fault = true ∨ analyserValue 33 s = none ∨ analyserValue 34 s = none →
      ∃ t, exec (if first then .purgeEnd true fault else .reading fault) s = .next t ∧
        t.sampler.faultCount = min (s.sampler.faultCount + 1) 3 ∧ t.sampler.marks = s.sampler.marks ∧ Silent s t ∧
        (2 ≤ s.sampler.faultCount → t.sampler.phase = .paused ∧ t.sampler.inFlight = none ∧
          t.sampler.analyserFault = true) ∧
        (s.sampler.faultCount < 2 → t.sampler.phase ≠ .paused))

/-- The last reading of a sample, which is the first where the reading count is 1: outside a hold the rounded averages are
filed to a sampleable station with the area its limits give, and dropped for any other; in a hold they are parked; and those
of a reference sample are checked against clean air. -/
def Obligations.LastReadingFiles : Prop :=
  ∀ (s : State) (m : Sample) (c o : Nat) (first : Bool), Undisturbed s → s.sampler.inFlight = some m →
    (if first then s.sampler.phase = .purging ∧ m.start.isSome = true else s.sampler.phase = .reading) →
    analyserValue 33 s = some c → analyserValue 34 s = some o → m.readings ≤ m.taken + 1 →
    let now := passUntil m.due s
    let meanC := (m.methaneSum + c + m.readings / 2) / m.readings
    let meanO := (m.oxygenSum + o + m.readings / 2) / m.readings
    let overRange : Bool := m.saturated || analyserSaturated 33 s || analyserSaturated 34 s
    ∃ t, exec (if first then .purgeEnd true false else .reading false) s = .next t ∧ Silent s t ∧
      t.elapsed = now.elapsed ∧ t.sampler.faultCount = 0 ∧
      (∀ i : StationIx, m.source.station? = some i →
        (s.link.hold = false → sampleable s i = true →
          (t.work i).quality = some { c := meanC, o := meanO, readings := m.readings, overRange := overRange
                                      start := m.start.getD 0, filed := bankClock now, line := m.line
                                      area := (if meanC < lowerLimit s.settings.bank (s.cfg i) then .poor
                                        else if meanC < upperLimit s.settings.bank (s.cfg i) then .fair else .good) }) ∧
        (s.link.hold = false → sampleable s i = false → (t.work i).quality = (s.work i).quality) ∧
        (s.link.hold = true → t.sampler.phase = .idle ∧ t.sampler.inFlight = none ∧
          t.sampler.parked = some ⟨i, meanC, meanO, m.readings, overRange, m.start.getD 0, m.line⟩ ∧
          (t.work i).quality = (s.work i).quality)) ∧
      (m.source = .reference →
        ∃ pass : Bool, (pass = true ↔ meanC ≤ 20 ∧ 195 ≤ meanO) ∧
          t.sampler.lastReference = some ⟨meanC, meanO, bankClock now, pass⟩ ∧
          (pass = true → t.sampler.phase ≠ .paused ∧ t.sampler.analyserFault = s.sampler.analyserFault) ∧
          (pass = false → t.sampler.phase = .paused ∧ t.sampler.inFlight = none ∧ t.sampler.analyserFault = true ∧
            t.sampler.passCount = 0 ∧ t.sampler.referenceDue = false ∧
            (s.events.queue.length < 24 → ∃ l, t.events.queue = s.events.queue ++
              ⟨.referenceFail, 0, none, bankClock now, some meanC⟩ :: l)))

/-- The classification of a filed result: quarantine, exhaustion, recovery and the recovery run. -/
def Obligations.FiledResultIsClassified : Prop :=
  ∀ (s : State) (r : StationResult), sampleable s r.station = true → Drivable r.station s →
    let i := r.station
    let t := fileResult plainly r s
    let poor : Prop := r.c < lowerLimit s.settings.bank (s.cfg i)
    let good : Prop := upperLimit s.settings.bank (s.cfg i) ≤ r.c
    let count := (s.work i).quarantineCount + 1
    ((s.work i).state = .producing → ¬ poor →
      (t.work i).state = .producing ∧ (t.work i).target = (s.work i).target ∧
      (t.work i).quarantineCount = (s.work i).quarantineCount) ∧
    ((s.work i).state = .producing → poor → count ≤ (s.cfg i).quarantineLimit →
      (t.work i).state = .quarantined ∧ (t.work i).target = (s.cfg i).sniffOpening ∧
      (t.work i).quarantineCount = count ∧ (t.work i).recoveryRun = 0) ∧
    ((s.work i).state = .producing → poor → (s.cfg i).quarantineLimit < count →
      (t.work i).state = .standby ∧ (t.work i).target = 0 ∧ (t.work i).restartMark = (s.work i).restartMark ∧
      (t.work i).quarantineCount = min ((s.cfg i).quarantineLimit + 1) 15) ∧
    ((s.work i).state = .quarantined → ¬ good →
      (t.work i).state = .quarantined ∧ (t.work i).recoveryRun = 0 ∧
      (t.work i).quarantineCount = (s.work i).quarantineCount) ∧
    ((s.work i).state = .quarantined → good → (s.work i).recoveryRun + 1 < (s.cfg i).recoveryCount →
      (t.work i).state = .quarantined ∧ (t.work i).recoveryRun = (s.work i).recoveryRun + 1) ∧
    ((s.work i).state = .quarantined → good → (s.cfg i).recoveryCount ≤ (s.work i).recoveryRun + 1 →
      (t.work i).state = .producing ∧ (t.work i).recoveryRun = 0 ∧
      (t.work i).target = clampTarget (s.cfg i) .producing (s.cfg i).startOpening ∧
      (t.work i).quarantineCount = (s.work i).quarantineCount)

/-! ### The valve drive -/

/-- The timers of motions: a grant when the start gap has passed, an inch period with its pulse, the end of a pulse, the end
of a reversal pause, and a timeout; and what a motion makes of the position that a conversion brings it: it completes, at the
present target with the last move done and the settle expiry, enters INCHING, stalls, or goes on. The last part leaves out a
flow loop that breaks at the same conversion and a trip at once, which give the station a new target. -/
def Obligations.DriveTimers : Prop :=
  ∀ s : State, Undisturbed s → DriveSound s →
    (∀ a e rest p, s.drive.lastMotorStart = some a → s.drive.queue = e :: rest → s.bank.mode ≠ .idle →
      s.drive.motions.length < s.settings.bank.slotCount → s.settings.bank.startGap ≠ 0 →
      (s.work e.station).position = some p → within p e.target s.settings.bank.inchBand = false →
      5 ≤ s.settings.bank.inchBand →
      let now := max s.elapsed (a + s.settings.bank.startGap * 500)
      exec .startGapEnd s = .next { s with
        elapsed := now
        drive :=
          { queue := rest
            motions := s.drive.motions ++
              [⟨e.station, e.target, now, p, .running (if p < e.target then .opening else .closing) (some p) now⟩]
            lastMotorStart := some now } }) ∧
    (∀ i m pulses a b pulse, motionOf s i = some m → m.phase = .inching pulses a b pulse →
      let now := max s.elapsed b
      let next (p : Option (Direction × Nat)) : MotionPhase :=
        .inching (pulses + 1) now (now + s.settings.bank.inchPeriod * 100) p
      let moved (p : Option (Direction × Nat)) : State := setMotion { m with phase := next p } (passUntil b s)
      (∀ p, pulses < 20 → (s.work i).position = some p → within p m.target 5 = false →
        exec (.inchPeriod i) s = .next (moved (some (if p < m.target then .opening else .closing,
          now + s.settings.bank.inchOn * 100)))) ∧
      (pulses < 20 → (s.work i).position = none → exec (.inchPeriod i) s = .next (moved none)) ∧
      (20 ≤ pulses → ∃ t, exec (.inchPeriod i) s = .next t ∧ motionOf t i = none ∧ Silent s t ∧ t.elapsed = now ∧
        (s.events.queue.length < 24 → ∃ l, t.events.queue = s.events.queue ++
          ⟨.miss, i.val + 1, none, min (now / 1000) 4294967295, (s.work i).position⟩ :: l) ∧
        (m.target = (s.work i).target → (t.work i).lastMoveDone = some (min (now / 1000) 4294967295)))) ∧
    (∀ i m pulses a b d off, motionOf s i = some m → m.phase = .inching pulses a b (some (d, off)) →
      exec (.inchPulseEnd i) s =
        .next (setMotion { m with phase := .inching pulses a b none } (passUntil off s))) ∧
    (∀ i m e p, motionOf s i = some m → m.phase = .reversing e → (s.work i).position = some p →
      within p m.target 5 = false → within p m.target s.settings.bank.inchBand = false →
      let now := max s.elapsed e
      exec (.reversalPauseEnd i) s = .next (setMotion { m with
        phase := .running (if p < m.target then .opening else .closing) (some p) now } (passUntil e s))) ∧
    (∀ i m, motionOf s i = some m →
      let now := max s.elapsed (m.grantAt + s.settings.bank.moveTimeout * 1000)
      ∃ t, exec (.timeout i) s = .next t ∧ motionOf t i = none ∧ Silent s t ∧ t.elapsed = now ∧
        (s.events.queue.length < 24 → ∃ l, t.events.queue = s.events.queue ++
          ⟨.timeout, i.val + 1, none, min (now / 1000) 4294967295, (s.work i).position⟩ :: l) ∧
        ((s.work i).state = .standby ∨ (s.work i).state.active = true →
          (t.work i).state = .faulted .valveTimeout ∧ (t.work i).target = 0)) ∧
    (∀ (codes : Vector Code 35) (i : StationIx) (m : Motion), motionOf s i = some m → 736 < codes[i.val].toNat →
      NeverTripsAtOnce s →
      let now := conversionInstant s
      let position := inputValue 1000 (convertCode 0 codes[i.val + 16])
      let b := s.settings.bank
      let seen : Motion := { m with lastSeen := position.getD m.lastSeen }
      ∃ t, exec (.conversion codes) s = .next t ∧ t.elapsed = now ∧ (t.work i).position = position ∧
        (∀ p, position = some p → within p m.target 5 = true →
          (∃ e, m.phase = .reversing e) ∨ motionOf t i = none ∧ queued t i = false ∧
            (m.target = (s.work i).target → (t.work i).lastMoveDone = some (bankClock t) ∧
              (t.work i).settleExpiry = if b.settleTime = 0 then none else expiryAfter t b.settleTime) ∧
            (m.target ≠ (s.work i).target → (t.work i).lastMoveDone = (s.work i).lastMoveDone)) ∧
        (∀ p d ref at_, position = some p → m.phase = .running d ref at_ → within p m.target 5 = false →
          within p m.target b.inchBand = true ∨ passed d p m.target = true →
          let pulse : Direction × Nat := (if p < m.target then .opening else .closing, now + b.inchOn * 100)
          motionOf t i = some { seen with phase := .inching 1 now (now + b.inchPeriod * 100) (some pulse) }) ∧
        (∀ d ref at_, m.phase = .running d ref at_ →
          (∀ p, position = some p →
            within p m.target 5 = false ∧ within p m.target b.inchBand = false ∧ passed d p m.target = false) →
          let r := stallReference ref at_ now position
          (now < r.2 + b.stallTime * 1000 → motionOf t i = some { seen with phase := .running d r.1 r.2 }) ∧
          (r.2 + b.stallTime * 1000 ≤ now → motionOf t i = none ∧
            (t.events.queue.length < 24 → ⟨.stall, i.val + 1, none, bankClock t, position⟩ ∈ t.events.queue) ∧
            ((s.work i).state = .standby ∨ (s.work i).state.active = true →
              (t.work i).state = .faulted .valveStall ∧ (t.work i).target = 0))) ∧
        (∀ e, m.phase = .reversing e → motionOf t i = some seen) ∧
        (∀ n a e pulse, m.phase = .inching n a e pulse → (∀ p, position = some p → within p m.target 5 = false) →
          motionOf t i = some seen))

/-- The settle expiry is removed and gives a sampleable station its entry; a timed pulse on the trip line and a blink drop
end. -/
def Obligations.SmallTimers : Prop :=
  ∀ s : State, Undisturbed s →
    (∀ i e, (s.work i).settleExpiry = some e →
      ∃ t, exec (.settleExpiry i) s = .next t ∧ (t.work i).settleExpiry = none ∧ t.elapsed = max s.elapsed (e * 1000) ∧
        (∀ j, j ≠ i → t.work j = s.work j) ∧ Silent s t ∧ t.drive = s.drive ∧ t.events = s.events ∧
        (sampleable s i = true → s.sampler.demand.length < 6 → s.sampler.phase ≠ .idle → i ∈ t.sampler.demand) ∧
        (sampleable s i = false → t.sampler = s.sampler)) ∧
    (∀ e, s.trip.line = .pulse e →
      exec .tripPulseEnd s = .next { s with elapsed := max s.elapsed e, trip := { s.trip with line := .released } }) ∧
    (∀ e, s.events.blinkDrop = some e →
      exec .blinkDropEnd s = .next { s with
        elapsed := max s.elapsed e, events := { s.events with blinkDrop := none } })

/-! ### Computations -/

/-- The flow of a window that ends valid, in the manual's five steps: 0 below 20 Pa, else by the relative density, the scaled
pressure and its integer root; a result above 9999 is clamped and marked. -/
def Obligations.FlowOfWindow : Prop :=
  ∀ (k c now : Nat) (w : FlowWindow), c ≤ 1000 → w.count ≠ 0 → w.sum / w.count ≤ 4000 →
    let dp := w.sum / w.count
    let rd := 1000 - 446 * c / 1000
    let s2 := dp * 1000000 / rd
    554 ≤ rd ∧ rd ≤ 1000 ∧ s2 ≤ 7220216 ∧
    (dp < 20 → windowRecord k c w now = .valid 0 dp w.saturated false now) ∧
    (20 ≤ dp → ∃ root, root * root ≤ s2 ∧ s2 < (root + 1) * (root + 1) ∧ root ≤ 2687 ∧
      windowRecord k c w now = .valid (min (k * root / 10000) 9999) dp w.saturated (9999 < k * root / 10000) now)

/-- The decision of a round event from the totals over the stations that take part: no flow, incomplete, held, deficit,
surplus or band, with the two breaches and the two branch conditions. -/
def Obligations.RoundDecision : Prop :=
  ∀ s : State,
    let b := s.settings.bank
    let r := roundRecord s
    let part (i : StationIx) : Bool := (s.work i).state.active
    let age (i : StationIx) : Nat := bankClock s - ((s.work i).quality.map QualityResult.filed).getD 0
    let known (i : StationIx) : Bool :=
      part i && (s.work i).flow.valid && (s.work i).quality.isSome && decide (age i ≤ b.staleLimit)
    let sum (f : StationIx → Nat) : Nat := (allStations.map f).sum
    let flow := sum fun i => if known i then (s.work i).flow.q else 0
    let rest := sum fun i => if part i && !known i then (s.work i).flow.q else 0
    let methane := sum fun i =>
      if known i then (s.work i).flow.q * ((s.work i).quality.map QualityResult.c).getD 0 else 0
    let oxygen := sum fun i =>
      if known i then (s.work i).flow.q * ((s.work i).quality.map QualityResult.o).getD 0 else 0
    r.time = bankClock s ∧ (r.kind = .round ↔ s.bank.mode = .running) ∧ r.knownFlow = flow ∧ r.unknownFlow = rest ∧
    (flow = 0 → r.outcome = .noFlow ∧ r.mixture = none ∧ r.adjustments = [] ∧
      purityLowAfter s r = false ∧ o2HighAfter s r = false) ∧
    (flow ≠ 0 → b.unknownShare * (flow + rest) < rest * 1000 → r.outcome = .incomplete ∧ r.mixture = none ∧
      r.adjustments = [] ∧ purityLowAfter s r = s.balancer.purityLow ∧ o2HighAfter s r = s.balancer.o2High) ∧
    (flow ≠ 0 → rest * 1000 ≤ b.unknownShare * (flow + rest) →
      r.mixture = some (methane / flow, oxygen / flow) ∧
      (r.purityBreached = true ↔ methane < b.purityFloor * flow) ∧
      (r.oxygenBreached = true ↔ b.oxygenCeiling * flow < oxygen) ∧
      (purityLowAfter s r = true ↔ methane < min b.tripFloor b.purityFloor * flow) ∧
      (o2HighAfter s r = true ↔ (max b.tripCeiling b.oxygenCeiling + 1) * flow ≤ oxygen) ∧
      (s.bank.mode ≠ .running → r.outcome = .held ∧ r.adjustments = []) ∧
      (s.bank.mode = .running →
        (r.purityBreached = true ∨ r.oxygenBreached = true → r.outcome = .deficit ∨ r.outcome = .shortfall) ∧
        (r.purityBreached = false → r.oxygenBreached = false →
          ((b.purityFloor + b.purityHysteresis) * flow ≤ methane ∧
              oxygen ≤ (b.oxygenCeiling - b.oxygenHysteresis) * flow →
            r.outcome = .surplus ∨ r.outcome = .surplusNone) ∧
          (methane < (b.purityFloor + b.purityHysteresis) * flow ∨
              (b.oxygenCeiling - b.oxygenHysteresis) * flow < oxygen →
            r.outcome = .band ∧ r.adjustments = []))))

/-- A round makes at most four adjustments, each of a PRODUCING, unpinned, fresh station with no move in hand: downward and
not below v_min where a limit is breached, else upward and not above v_max. -/
def Obligations.RoundAdjustmentsBounded : Prop :=
  ∀ s : State, (roundRecord s).adjustments.length ≤ 4 ∧
    ∀ a ∈ (roundRecord s).adjustments,
      (s.work a.station).state = .producing ∧ (s.cfg a.station).pinned = false ∧ (s.work a.station).fresh = true ∧
      motionStatus s a.station = .none ∧ a.old = (s.work a.station).target ∧
      ((roundRecord s).purityBreached = true ∨ (roundRecord s).oxygenBreached = true →
        (s.cfg a.station).vMin ≤ a.new ∧ a.new < a.old ∧ a.old ≤ a.new + s.settings.bank.maxStepDown) ∧
      ((roundRecord s).purityBreached = false ∧ (roundRecord s).oxygenBreached = false →
        a.old ≤ a.new ∧ a.new ≤ (s.cfg a.station).vMax ∧ a.new ≤ a.old + s.settings.bank.stepUp)
end

