-- ==== Sys2Proof/Laws/State.lean ====
section
/-! SUPPORT. One lemma for each field and each of the commonest updates of the state: what the update leaves alone. -/

namespace Sys2Proof.Laws

open Sys2Proof Sys2Proof.Machine

variable (s : State)

/-! ### passUntil -/

@[simp] theorem passUntil_conversionDue (at_ : Nat) : (passUntil at_ s).conversionDue = s.conversionDue := rfl
@[simp] theorem passUntil_powered (at_ : Nat) : (passUntil at_ s).powered = s.powered := rfl
@[simp] theorem passUntil_restartDue (at_ : Nat) : (passUntil at_ s).restartDue = s.restartDue := rfl
@[simp] theorem passUntil_address (at_ : Nat) : (passUntil at_ s).address = s.address := rfl
@[simp] theorem passUntil_pins (at_ : Nat) : (passUntil at_ s).pins = s.pins := rfl
@[simp] theorem passUntil_stations (at_ : Nat) : (passUntil at_ s).stations = s.stations := rfl
@[simp] theorem passUntil_settings (at_ : Nat) : (passUntil at_ s).settings = s.settings := rfl
@[simp] theorem passUntil_measure (at_ : Nat) : (passUntil at_ s).measure = s.measure := rfl
@[simp] theorem passUntil_sampler (at_ : Nat) : (passUntil at_ s).sampler = s.sampler := rfl
@[simp] theorem passUntil_balancer (at_ : Nat) : (passUntil at_ s).balancer = s.balancer := rfl
@[simp] theorem passUntil_drive (at_ : Nat) : (passUntil at_ s).drive = s.drive := rfl
@[simp] theorem passUntil_trip (at_ : Nat) : (passUntil at_ s).trip = s.trip := rfl
@[simp] theorem passUntil_link (at_ : Nat) : (passUntil at_ s).link = s.link := rfl
@[simp] theorem passUntil_bank (at_ : Nat) : (passUntil at_ s).bank = s.bank := rfl
@[simp] theorem passUntil_memory (at_ : Nat) : (passUntil at_ s).memory = s.memory := rfl
@[simp] theorem passUntil_events (at_ : Nat) : (passUntil at_ s).events = s.events := rfl
@[simp] theorem passUntil_control (at_ : Nat) : (passUntil at_ s).control = s.control := rfl
@[simp] theorem passUntil_monitor (at_ : Nat) : (passUntil at_ s).monitor = s.monitor := rfl
@[simp] theorem passUntil_pending (at_ : Nat) : (passUntil at_ s).pending = s.pending := rfl
@[simp] theorem passUntil_work (at_ : Nat) (j : StationIx) : (passUntil at_ s).work j = s.work j := rfl
@[simp] theorem passUntil_cfg (at_ : Nat) (j : StationIx) : (passUntil at_ s).cfg j = s.cfg j := rfl

/-! ### setWork -/

@[simp] theorem setWork_elapsed (i : StationIx) (w : StationWork) : (s.setWork i w).elapsed = s.elapsed := rfl
@[simp] theorem setWork_conversionDue (i : StationIx) (w : StationWork) : (s.setWork i w).conversionDue = s.conversionDue := rfl
@[simp] theorem setWork_powered (i : StationIx) (w : StationWork) : (s.setWork i w).powered = s.powered := rfl
@[simp] theorem setWork_restartDue (i : StationIx) (w : StationWork) : (s.setWork i w).restartDue = s.restartDue := rfl
@[simp] theorem setWork_address (i : StationIx) (w : StationWork) : (s.setWork i w).address = s.address := rfl
@[simp] theorem setWork_pins (i : StationIx) (w : StationWork) : (s.setWork i w).pins = s.pins := rfl
@[simp] theorem setWork_settings (i : StationIx) (w : StationWork) : (s.setWork i w).settings = s.settings := rfl
@[simp] theorem setWork_measure (i : StationIx) (w : StationWork) : (s.setWork i w).measure = s.measure := rfl
@[simp] theorem setWork_sampler (i : StationIx) (w : StationWork) : (s.setWork i w).sampler = s.sampler := rfl
@[simp] theorem setWork_balancer (i : StationIx) (w : StationWork) : (s.setWork i w).balancer = s.balancer := rfl
@[simp] theorem setWork_drive (i : StationIx) (w : StationWork) : (s.setWork i w).drive = s.drive := rfl
@[simp] theorem setWork_trip (i : StationIx) (w : StationWork) : (s.setWork i w).trip = s.trip := rfl
@[simp] theorem setWork_link (i : StationIx) (w : StationWork) : (s.setWork i w).link = s.link := rfl
@[simp] theorem setWork_bank (i : StationIx) (w : StationWork) : (s.setWork i w).bank = s.bank := rfl
@[simp] theorem setWork_memory (i : StationIx) (w : StationWork) : (s.setWork i w).memory = s.memory := rfl
@[simp] theorem setWork_events (i : StationIx) (w : StationWork) : (s.setWork i w).events = s.events := rfl
@[simp] theorem setWork_control (i : StationIx) (w : StationWork) : (s.setWork i w).control = s.control := rfl
@[simp] theorem setWork_monitor (i : StationIx) (w : StationWork) : (s.setWork i w).monitor = s.monitor := rfl
@[simp] theorem setWork_pending (i : StationIx) (w : StationWork) : (s.setWork i w).pending = s.pending := rfl
@[simp] theorem setWork_bankClock (i : StationIx) (w : StationWork) : bankClock (s.setWork i w) = bankClock s := rfl

/-! ### setCfg -/

@[simp] theorem setCfg_elapsed (i : StationIx) (c : StationConfig) : (s.setCfg i c).elapsed = s.elapsed := rfl
@[simp] theorem setCfg_conversionDue (i : StationIx) (c : StationConfig) : (s.setCfg i c).conversionDue = s.conversionDue := rfl
@[simp] theorem setCfg_powered (i : StationIx) (c : StationConfig) : (s.setCfg i c).powered = s.powered := rfl
@[simp] theorem setCfg_restartDue (i : StationIx) (c : StationConfig) : (s.setCfg i c).restartDue = s.restartDue := rfl
@[simp] theorem setCfg_address (i : StationIx) (c : StationConfig) : (s.setCfg i c).address = s.address := rfl
@[simp] theorem setCfg_pins (i : StationIx) (c : StationConfig) : (s.setCfg i c).pins = s.pins := rfl
@[simp] theorem setCfg_settings (i : StationIx) (c : StationConfig) : (s.setCfg i c).settings = s.settings := rfl
@[simp] theorem setCfg_measure (i : StationIx) (c : StationConfig) : (s.setCfg i c).measure = s.measure := rfl
@[simp] theorem setCfg_sampler (i : StationIx) (c : StationConfig) : (s.setCfg i c).sampler = s.sampler := rfl
@[simp] theorem setCfg_balancer (i : StationIx) (c : StationConfig) : (s.setCfg i c).balancer = s.balancer := rfl
@[simp] theorem setCfg_drive (i : StationIx) (c : StationConfig) : (s.setCfg i c).drive = s.drive := rfl
@[simp] theorem setCfg_trip (i : StationIx) (c : StationConfig) : (s.setCfg i c).trip = s.trip := rfl
@[simp] theorem setCfg_link (i : StationIx) (c : StationConfig) : (s.setCfg i c).link = s.link := rfl
@[simp] theorem setCfg_bank (i : StationIx) (c : StationConfig) : (s.setCfg i c).bank = s.bank := rfl
@[simp] theorem setCfg_memory (i : StationIx) (c : StationConfig) : (s.setCfg i c).memory = s.memory := rfl
@[simp] theorem setCfg_events (i : StationIx) (c : StationConfig) : (s.setCfg i c).events = s.events := rfl
@[simp] theorem setCfg_control (i : StationIx) (c : StationConfig) : (s.setCfg i c).control = s.control := rfl
@[simp] theorem setCfg_monitor (i : StationIx) (c : StationConfig) : (s.setCfg i c).monitor = s.monitor := rfl
@[simp] theorem setCfg_pending (i : StationIx) (c : StationConfig) : (s.setCfg i c).pending = s.pending := rfl
@[simp] theorem setCfg_bankClock (i : StationIx) (c : StationConfig) : bankClock (s.setCfg i c) = bankClock s := rfl

/-! ### raise -/

@[simp] theorem raise_elapsed (kind : EventKind) (station : Nat) (edge : Option Edge) (value : Option Nat) : (raise kind station edge value s).elapsed = s.elapsed := rfl
@[simp] theorem raise_conversionDue (kind : EventKind) (station : Nat) (edge : Option Edge) (value : Option Nat) : (raise kind station edge value s).conversionDue = s.conversionDue := rfl
@[simp] theorem raise_powered (kind : EventKind) (station : Nat) (edge : Option Edge) (value : Option Nat) : (raise kind station edge value s).powered = s.powered := rfl
@[simp] theorem raise_restartDue (kind : EventKind) (station : Nat) (edge : Option Edge) (value : Option Nat) : (raise kind station edge value s).restartDue = s.restartDue := rfl
@[simp] theorem raise_address (kind : EventKind) (station : Nat) (edge : Option Edge) (value : Option Nat) : (raise kind station edge value s).address = s.address := rfl
@[simp] theorem raise_pins (kind : EventKind) (station : Nat) (edge : Option Edge) (value : Option Nat) : (raise kind station edge value s).pins = s.pins := rfl
@[simp] theorem raise_stations (kind : EventKind) (station : Nat) (edge : Option Edge) (value : Option Nat) : (raise kind station edge value s).stations = s.stations := rfl
@[simp] theorem raise_settings (kind : EventKind) (station : Nat) (edge : Option Edge) (value : Option Nat) : (raise kind station edge value s).settings = s.settings := rfl
@[simp] theorem raise_measure (kind : EventKind) (station : Nat) (edge : Option Edge) (value : Option Nat) : (raise kind station edge value s).measure = s.measure := rfl
@[simp] theorem raise_sampler (kind : EventKind) (station : Nat) (edge : Option Edge) (value : Option Nat) : (raise kind station edge value s).sampler = s.sampler := rfl
@[simp] theorem raise_balancer (kind : EventKind) (station : Nat) (edge : Option Edge) (value : Option Nat) : (raise kind station edge value s).balancer = s.balancer := rfl
@[simp] theorem raise_drive (kind : EventKind) (station : Nat) (edge : Option Edge) (value : Option Nat) : (raise kind station edge value s).drive = s.drive := rfl
@[simp] theorem raise_trip (kind : EventKind) (station : Nat) (edge : Option Edge) (value : Option Nat) : (raise kind station edge value s).trip = s.trip := rfl
@[simp] theorem raise_link (kind : EventKind) (station : Nat) (edge : Option Edge) (value : Option Nat) : (raise kind station edge value s).link = s.link := rfl
@[simp] theorem raise_bank (kind : EventKind) (station : Nat) (edge : Option Edge) (value : Option Nat) : (raise kind station edge value s).bank = s.bank := rfl
@[simp] theorem raise_memory (kind : EventKind) (station : Nat) (edge : Option Edge) (value : Option Nat) : (raise kind station edge value s).memory = s.memory := rfl
@[simp] theorem raise_control (kind : EventKind) (station : Nat) (edge : Option Edge) (value : Option Nat) : (raise kind station edge value s).control = s.control := rfl
@[simp] theorem raise_monitor (kind : EventKind) (station : Nat) (edge : Option Edge) (value : Option Nat) : (raise kind station edge value s).monitor = s.monitor := rfl
@[simp] theorem raise_pending (kind : EventKind) (station : Nat) (edge : Option Edge) (value : Option Nat) : (raise kind station edge value s).pending = s.pending := rfl
@[simp] theorem raise_work (kind : EventKind) (station : Nat) (edge : Option Edge) (value : Option Nat) (j : StationIx) : (raise kind station edge value s).work j = s.work j := rfl
@[simp] theorem raise_cfg (kind : EventKind) (station : Nat) (edge : Option Edge) (value : Option Nat) (j : StationIx) : (raise kind station edge value s).cfg j = s.cfg j := rfl
@[simp] theorem raise_bankClock (kind : EventKind) (station : Nat) (edge : Option Edge) (value : Option Nat) : bankClock (raise kind station edge value s) = bankClock s := rfl

/-! ### rewriteWords -/

@[simp] theorem rewriteWords_elapsed (ws : List Nat) : (rewriteWords ws s).elapsed = s.elapsed := rfl
@[simp] theorem rewriteWords_conversionDue (ws : List Nat) : (rewriteWords ws s).conversionDue = s.conversionDue := rfl
@[simp] theorem rewriteWords_powered (ws : List Nat) : (rewriteWords ws s).powered = s.powered := rfl
@[simp] theorem rewriteWords_restartDue (ws : List Nat) : (rewriteWords ws s).restartDue = s.restartDue := rfl
@[simp] theorem rewriteWords_address (ws : List Nat) : (rewriteWords ws s).address = s.address := rfl
@[simp] theorem rewriteWords_pins (ws : List Nat) : (rewriteWords ws s).pins = s.pins := rfl
@[simp] theorem rewriteWords_stations (ws : List Nat) : (rewriteWords ws s).stations = s.stations := rfl
@[simp] theorem rewriteWords_settings (ws : List Nat) : (rewriteWords ws s).settings = s.settings := rfl
@[simp] theorem rewriteWords_measure (ws : List Nat) : (rewriteWords ws s).measure = s.measure := rfl
@[simp] theorem rewriteWords_sampler (ws : List Nat) : (rewriteWords ws s).sampler = s.sampler := rfl
@[simp] theorem rewriteWords_balancer (ws : List Nat) : (rewriteWords ws s).balancer = s.balancer := rfl
@[simp] theorem rewriteWords_drive (ws : List Nat) : (rewriteWords ws s).drive = s.drive := rfl
@[simp] theorem rewriteWords_trip (ws : List Nat) : (rewriteWords ws s).trip = s.trip := rfl
@[simp] theorem rewriteWords_link (ws : List Nat) : (rewriteWords ws s).link = s.link := rfl
@[simp] theorem rewriteWords_bank (ws : List Nat) : (rewriteWords ws s).bank = s.bank := rfl
@[simp] theorem rewriteWords_events (ws : List Nat) : (rewriteWords ws s).events = s.events := rfl
@[simp] theorem rewriteWords_control (ws : List Nat) : (rewriteWords ws s).control = s.control := rfl
@[simp] theorem rewriteWords_monitor (ws : List Nat) : (rewriteWords ws s).monitor = s.monitor := rfl
@[simp] theorem rewriteWords_pending (ws : List Nat) : (rewriteWords ws s).pending = s.pending := rfl
@[simp] theorem rewriteWords_work (ws : List Nat) (j : StationIx) : (rewriteWords ws s).work j = s.work j := rfl
@[simp] theorem rewriteWords_cfg (ws : List Nat) (j : StationIx) : (rewriteWords ws s).cfg j = s.cfg j := rfl
@[simp] theorem rewriteWords_bankClock (ws : List Nat) : bankClock (rewriteWords ws s) = bankClock s := rfl

/-! ### setMotion -/

@[simp] theorem setMotion_elapsed (m : Motion) : (setMotion m s).elapsed = s.elapsed := rfl
@[simp] theorem setMotion_conversionDue (m : Motion) : (setMotion m s).conversionDue = s.conversionDue := rfl
@[simp] theorem setMotion_powered (m : Motion) : (setMotion m s).powered = s.powered := rfl
@[simp] theorem setMotion_restartDue (m : Motion) : (setMotion m s).restartDue = s.restartDue := rfl
@[simp] theorem setMotion_address (m : Motion) : (setMotion m s).address = s.address := rfl
@[simp] theorem setMotion_pins (m : Motion) : (setMotion m s).pins = s.pins := rfl
@[simp] theorem setMotion_stations (m : Motion) : (setMotion m s).stations = s.stations := rfl
@[simp] theorem setMotion_settings (m : Motion) : (setMotion m s).settings = s.settings := rfl
@[simp] theorem setMotion_measure (m : Motion) : (setMotion m s).measure = s.measure := rfl
@[simp] theorem setMotion_sampler (m : Motion) : (setMotion m s).sampler = s.sampler := rfl
@[simp] theorem setMotion_balancer (m : Motion) : (setMotion m s).balancer = s.balancer := rfl
@[simp] theorem setMotion_trip (m : Motion) : (setMotion m s).trip = s.trip := rfl
@[simp] theorem setMotion_link (m : Motion) : (setMotion m s).link = s.link := rfl
@[simp] theorem setMotion_bank (m : Motion) : (setMotion m s).bank = s.bank := rfl
@[simp] theorem setMotion_memory (m : Motion) : (setMotion m s).memory = s.memory := rfl
@[simp] theorem setMotion_events (m : Motion) : (setMotion m s).events = s.events := rfl
@[simp] theorem setMotion_control (m : Motion) : (setMotion m s).control = s.control := rfl
@[simp] theorem setMotion_monitor (m : Motion) : (setMotion m s).monitor = s.monitor := rfl
@[simp] theorem setMotion_pending (m : Motion) : (setMotion m s).pending = s.pending := rfl
@[simp] theorem setMotion_work (m : Motion) (j : StationIx) : (setMotion m s).work j = s.work j := rfl
@[simp] theorem setMotion_cfg (m : Motion) (j : StationIx) : (setMotion m s).cfg j = s.cfg j := rfl
@[simp] theorem setMotion_bankClock (m : Motion) : bankClock (setMotion m s) = bankClock s := rfl

/-! ### dropMotion -/

@[simp] theorem dropMotion_elapsed (i : StationIx) : (dropMotion i s).elapsed = s.elapsed := rfl
@[simp] theorem dropMotion_conversionDue (i : StationIx) : (dropMotion i s).conversionDue = s.conversionDue := rfl
@[simp] theorem dropMotion_powered (i : StationIx) : (dropMotion i s).powered = s.powered := rfl
@[simp] theorem dropMotion_restartDue (i : StationIx) : (dropMotion i s).restartDue = s.restartDue := rfl
@[simp] theorem dropMotion_address (i : StationIx) : (dropMotion i s).address = s.address := rfl
@[simp] theorem dropMotion_pins (i : StationIx) : (dropMotion i s).pins = s.pins := rfl
@[simp] theorem dropMotion_stations (i : StationIx) : (dropMotion i s).stations = s.stations := rfl
@[simp] theorem dropMotion_settings (i : StationIx) : (dropMotion i s).settings = s.settings := rfl
@[simp] theorem dropMotion_measure (i : StationIx) : (dropMotion i s).measure = s.measure := rfl
@[simp] theorem dropMotion_sampler (i : StationIx) : (dropMotion i s).sampler = s.sampler := rfl
@[simp] theorem dropMotion_balancer (i : StationIx) : (dropMotion i s).balancer = s.balancer := rfl
@[simp] theorem dropMotion_trip (i : StationIx) : (dropMotion i s).trip = s.trip := rfl
@[simp] theorem dropMotion_link (i : StationIx) : (dropMotion i s).link = s.link := rfl
@[simp] theorem dropMotion_bank (i : StationIx) : (dropMotion i s).bank = s.bank := rfl
@[simp] theorem dropMotion_memory (i : StationIx) : (dropMotion i s).memory = s.memory := rfl
@[simp] theorem dropMotion_events (i : StationIx) : (dropMotion i s).events = s.events := rfl
@[simp] theorem dropMotion_control (i : StationIx) : (dropMotion i s).control = s.control := rfl
@[simp] theorem dropMotion_monitor (i : StationIx) : (dropMotion i s).monitor = s.monitor := rfl
@[simp] theorem dropMotion_pending (i : StationIx) : (dropMotion i s).pending = s.pending := rfl
@[simp] theorem dropMotion_work (i : StationIx) (j : StationIx) : (dropMotion i s).work j = s.work j := rfl
@[simp] theorem dropMotion_cfg (i : StationIx) (j : StationIx) : (dropMotion i s).cfg j = s.cfg j := rfl
@[simp] theorem dropMotion_bankClock (i : StationIx) : bankClock (dropMotion i s) = bankClock s := rfl

/-! ### dropMoves -/

@[simp] theorem dropMoves_elapsed (i : StationIx) : (dropMoves i s).elapsed = s.elapsed := rfl
@[simp] theorem dropMoves_conversionDue (i : StationIx) : (dropMoves i s).conversionDue = s.conversionDue := rfl
@[simp] theorem dropMoves_powered (i : StationIx) : (dropMoves i s).powered = s.powered := rfl
@[simp] theorem dropMoves_restartDue (i : StationIx) : (dropMoves i s).restartDue = s.restartDue := rfl
@[simp] theorem dropMoves_address (i : StationIx) : (dropMoves i s).address = s.address := rfl
@[simp] theorem dropMoves_pins (i : StationIx) : (dropMoves i s).pins = s.pins := rfl
@[simp] theorem dropMoves_stations (i : StationIx) : (dropMoves i s).stations = s.stations := rfl
@[simp] theorem dropMoves_settings (i : StationIx) : (dropMoves i s).settings = s.settings := rfl
@[simp] theorem dropMoves_measure (i : StationIx) : (dropMoves i s).measure = s.measure := rfl
@[simp] theorem dropMoves_sampler (i : StationIx) : (dropMoves i s).sampler = s.sampler := rfl
@[simp] theorem dropMoves_balancer (i : StationIx) : (dropMoves i s).balancer = s.balancer := rfl
@[simp] theorem dropMoves_trip (i : StationIx) : (dropMoves i s).trip = s.trip := rfl
@[simp] theorem dropMoves_link (i : StationIx) : (dropMoves i s).link = s.link := rfl
@[simp] theorem dropMoves_bank (i : StationIx) : (dropMoves i s).bank = s.bank := rfl
@[simp] theorem dropMoves_memory (i : StationIx) : (dropMoves i s).memory = s.memory := rfl
@[simp] theorem dropMoves_events (i : StationIx) : (dropMoves i s).events = s.events := rfl
@[simp] theorem dropMoves_control (i : StationIx) : (dropMoves i s).control = s.control := rfl
@[simp] theorem dropMoves_monitor (i : StationIx) : (dropMoves i s).monitor = s.monitor := rfl
@[simp] theorem dropMoves_pending (i : StationIx) : (dropMoves i s).pending = s.pending := rfl
@[simp] theorem dropMoves_work (i : StationIx) (j : StationIx) : (dropMoves i s).work j = s.work j := rfl
@[simp] theorem dropMoves_cfg (i : StationIx) (j : StationIx) : (dropMoves i s).cfg j = s.cfg j := rfl
@[simp] theorem dropMoves_bankClock (i : StationIx) : bankClock (dropMoves i s) = bankClock s := rfl

/-! ### dropClaim -/

@[simp] theorem dropClaim_elapsed (i : StationIx) : (dropClaim i s).elapsed = s.elapsed := rfl
@[simp] theorem dropClaim_conversionDue (i : StationIx) : (dropClaim i s).conversionDue = s.conversionDue := rfl
@[simp] theorem dropClaim_powered (i : StationIx) : (dropClaim i s).powered = s.powered := rfl
@[simp] theorem dropClaim_restartDue (i : StationIx) : (dropClaim i s).restartDue = s.restartDue := rfl
@[simp] theorem dropClaim_address (i : StationIx) : (dropClaim i s).address = s.address := rfl
@[simp] theorem dropClaim_pins (i : StationIx) : (dropClaim i s).pins = s.pins := rfl
@[simp] theorem dropClaim_stations (i : StationIx) : (dropClaim i s).stations = s.stations := rfl
@[simp] theorem dropClaim_settings (i : StationIx) : (dropClaim i s).settings = s.settings := rfl
@[simp] theorem dropClaim_measure (i : StationIx) : (dropClaim i s).measure = s.measure := rfl
@[simp] theorem dropClaim_balancer (i : StationIx) : (dropClaim i s).balancer = s.balancer := rfl
@[simp] theorem dropClaim_drive (i : StationIx) : (dropClaim i s).drive = s.drive := rfl
@[simp] theorem dropClaim_trip (i : StationIx) : (dropClaim i s).trip = s.trip := rfl
@[simp] theorem dropClaim_link (i : StationIx) : (dropClaim i s).link = s.link := rfl
@[simp] theorem dropClaim_bank (i : StationIx) : (dropClaim i s).bank = s.bank := rfl
@[simp] theorem dropClaim_memory (i : StationIx) : (dropClaim i s).memory = s.memory := rfl
@[simp] theorem dropClaim_events (i : StationIx) : (dropClaim i s).events = s.events := rfl
@[simp] theorem dropClaim_control (i : StationIx) : (dropClaim i s).control = s.control := rfl
@[simp] theorem dropClaim_monitor (i : StationIx) : (dropClaim i s).monitor = s.monitor := rfl
@[simp] theorem dropClaim_pending (i : StationIx) : (dropClaim i s).pending = s.pending := rfl
@[simp] theorem dropClaim_work (i : StationIx) (j : StationIx) : (dropClaim i s).work j = s.work j := rfl
@[simp] theorem dropClaim_cfg (i : StationIx) (j : StationIx) : (dropClaim i s).cfg j = s.cfg j := rfl
@[simp] theorem dropClaim_bankClock (i : StationIx) : bankClock (dropClaim i s) = bankClock s := rfl

/-! ### setMode -/

@[simp] theorem setMode_elapsed (m : BankMode) : (setMode m s).elapsed = s.elapsed := rfl
@[simp] theorem setMode_conversionDue (m : BankMode) : (setMode m s).conversionDue = s.conversionDue := rfl
@[simp] theorem setMode_powered (m : BankMode) : (setMode m s).powered = s.powered := rfl
@[simp] theorem setMode_restartDue (m : BankMode) : (setMode m s).restartDue = s.restartDue := rfl
@[simp] theorem setMode_address (m : BankMode) : (setMode m s).address = s.address := rfl
@[simp] theorem setMode_pins (m : BankMode) : (setMode m s).pins = s.pins := rfl
@[simp] theorem setMode_stations (m : BankMode) : (setMode m s).stations = s.stations := rfl
@[simp] theorem setMode_settings (m : BankMode) : (setMode m s).settings = s.settings := rfl
@[simp] theorem setMode_measure (m : BankMode) : (setMode m s).measure = s.measure := rfl
@[simp] theorem setMode_sampler (m : BankMode) : (setMode m s).sampler = s.sampler := rfl
@[simp] theorem setMode_balancer (m : BankMode) : (setMode m s).balancer = s.balancer := rfl
@[simp] theorem setMode_drive (m : BankMode) : (setMode m s).drive = s.drive := rfl
@[simp] theorem setMode_trip (m : BankMode) : (setMode m s).trip = s.trip := rfl
@[simp] theorem setMode_link (m : BankMode) : (setMode m s).link = s.link := rfl
@[simp] theorem setMode_memory (m : BankMode) : (setMode m s).memory = s.memory := rfl
@[simp] theorem setMode_control (m : BankMode) : (setMode m s).control = s.control := rfl
@[simp] theorem setMode_monitor (m : BankMode) : (setMode m s).monitor = s.monitor := rfl
@[simp] theorem setMode_pending (m : BankMode) : (setMode m s).pending = s.pending := rfl
@[simp] theorem setMode_work (m : BankMode) (j : StationIx) : (setMode m s).work j = s.work j := rfl
@[simp] theorem setMode_cfg (m : BankMode) (j : StationIx) : (setMode m s).cfg j = s.cfg j := rfl
@[simp] theorem setMode_bankClock (m : BankMode) : bankClock (setMode m s) = bankClock s := rfl

/-! ### setPort -/

@[simp] theorem setPort_elapsed (p : Port) (v : PortState) : (s.setPort p v).elapsed = s.elapsed := by cases p <;> rfl
@[simp] theorem setPort_conversionDue (p : Port) (v : PortState) : (s.setPort p v).conversionDue = s.conversionDue := by cases p <;> rfl
@[simp] theorem setPort_powered (p : Port) (v : PortState) : (s.setPort p v).powered = s.powered := by cases p <;> rfl
@[simp] theorem setPort_restartDue (p : Port) (v : PortState) : (s.setPort p v).restartDue = s.restartDue := by cases p <;> rfl
@[simp] theorem setPort_address (p : Port) (v : PortState) : (s.setPort p v).address = s.address := by cases p <;> rfl
@[simp] theorem setPort_pins (p : Port) (v : PortState) : (s.setPort p v).pins = s.pins := by cases p <;> rfl
@[simp] theorem setPort_stations (p : Port) (v : PortState) : (s.setPort p v).stations = s.stations := by cases p <;> rfl
@[simp] theorem setPort_settings (p : Port) (v : PortState) : (s.setPort p v).settings = s.settings := by cases p <;> rfl
@[simp] theorem setPort_measure (p : Port) (v : PortState) : (s.setPort p v).measure = s.measure := by cases p <;> rfl
@[simp] theorem setPort_sampler (p : Port) (v : PortState) : (s.setPort p v).sampler = s.sampler := by cases p <;> rfl
@[simp] theorem setPort_balancer (p : Port) (v : PortState) : (s.setPort p v).balancer = s.balancer := by cases p <;> rfl
@[simp] theorem setPort_drive (p : Port) (v : PortState) : (s.setPort p v).drive = s.drive := by cases p <;> rfl
@[simp] theorem setPort_trip (p : Port) (v : PortState) : (s.setPort p v).trip = s.trip := by cases p <;> rfl
@[simp] theorem setPort_link (p : Port) (v : PortState) : (s.setPort p v).link = s.link := by cases p <;> rfl
@[simp] theorem setPort_bank (p : Port) (v : PortState) : (s.setPort p v).bank = s.bank := by cases p <;> rfl
@[simp] theorem setPort_memory (p : Port) (v : PortState) : (s.setPort p v).memory = s.memory := by cases p <;> rfl
@[simp] theorem setPort_events (p : Port) (v : PortState) : (s.setPort p v).events = s.events := by cases p <;> rfl
@[simp] theorem setPort_pending (p : Port) (v : PortState) : (s.setPort p v).pending = s.pending := by cases p <;> rfl
@[simp] theorem setPort_work (p : Port) (v : PortState) (j : StationIx) : (s.setPort p v).work j = s.work j := by cases p <;> rfl
@[simp] theorem setPort_cfg (p : Port) (v : PortState) (j : StationIx) : (s.setPort p v).cfg j = s.cfg j := by cases p <;> rfl
@[simp] theorem setPort_bankClock (p : Port) (v : PortState) : bankClock (s.setPort p v) = bankClock s := by cases p <;> rfl

/-! ### Station records -/

@[simp] theorem setWork_work_same (i : StationIx) (w : StationWork) : (s.setWork i w).work i = w := by
  simp [State.setWork, State.setStation, State.work, State.station]

@[simp] theorem setWork_work_other {i j : StationIx} (w : StationWork) (h : j ≠ i) :
    (s.setWork i w).work j = s.work j := by
  have : i.val ≠ j.val := fun e => h (Fin.ext e.symm)
  simp [State.setWork, State.setStation, State.work, State.station, this]

@[simp] theorem setWork_cfg (i j : StationIx) (w : StationWork) : (s.setWork i w).cfg j = s.cfg j := by
  by_cases h : i.val = j.val
  · have : i = j := Fin.ext h
    subst this
    simp [State.setWork, State.setStation, State.cfg, State.station]
  · simp [State.setWork, State.setStation, State.cfg, State.station, h]

@[simp] theorem setCfg_cfg_same (i : StationIx) (c : StationConfig) : (s.setCfg i c).cfg i = c := by
  simp [State.setCfg, State.setStation, State.cfg, State.station]

@[simp] theorem setCfg_cfg_other {i j : StationIx} (c : StationConfig) (h : j ≠ i) :
    (s.setCfg i c).cfg j = s.cfg j := by
  have : i.val ≠ j.val := fun e => h (Fin.ext e.symm)
  simp [State.setCfg, State.setStation, State.cfg, State.station, this]

@[simp] theorem setCfg_work (i j : StationIx) (c : StationConfig) : (s.setCfg i c).work j = s.work j := by
  by_cases h : i.val = j.val
  · have : i = j := Fin.ext h
    subst this
    simp [State.setCfg, State.setStation, State.work, State.station]
  · simp [State.setCfg, State.setStation, State.work, State.station, h]

/-- Two states with the same work and configuration of every station have the same table. -/
theorem stations_ext {s t : State} (hw : ∀ j, t.work j = s.work j) (hc : ∀ j, t.cfg j = s.cfg j) :
    t.stations = s.stations := by
  ext1 k hk
  have a := hw ⟨k, hk⟩
  have b := hc ⟨k, hk⟩
  simp only [State.work, State.cfg, State.station] at a b
  cases h : t.stations[k]
  cases h' : s.stations[k]
  simp_all

/-! ### Work whose words are all good (R187) -/

@[simp] theorem plain_look (ws : List Nat) : plain.look ws s = s := rfl

@[simp] theorem plain_store (i : StationIx) (fields : List WorkField) : plain.store i fields s = s := rfl

@[simp] theorem plainly_eq (need : State → List Nat) (work : Work) : plainly need work s = work plain s := rfl

@[simp] theorem nothing_eq (a : Access) : nothing a s = s := rfl

@[simp] theorem putWork_plain (i : StationIx) (fields : List WorkField) (w : StationWork) :
    putWork plain i fields w s = s.setWork i w := rfl

@[simp] theorem selectBy_plain : selectBy plain s = select s := rfl

@[simp] theorem releaseClaim_plain (i : StationIx) : releaseClaim plain i s = dropClaim i s := rfl

@[simp] theorem withdraw_plain (i : StationIx) : withdraw plain i s = dropMoves i s := rfl

@[simp] theorem changeMotion_plain (m : Motion) : changeMotion plain m s = setMotion m s := rfl

@[simp] theorem endMotion_plain (i : StationIx) : endMotion plain i s = dropMotion i s := rfl

@[simp] theorem reportEnds_plain (l : List StationIx) : reportEnds plain l s = s := by
  induction l with
  | nil => rfl
  | cons i rest ih => simp_all [reportEnds]

@[simp] theorem stopOrder_plain :
    stopOrder plain s = { s with drive := { s.drive with queue := [], motions := [] } } := by simp [stopOrder]

/-! ### Ports -/

@[simp] theorem setPort_port_same (p : Port) (v : PortState) : (s.setPort p v).port p = v := by cases p <;> rfl

@[simp] theorem setPort_setPort (p : Port) (v w : PortState) : (s.setPort p v).setPort p w = s.setPort p w := by
  cases p <;> rfl

theorem received_port (p : Port) : (received p s).port p = { s.port p with receiver := .hunt } := by cases p <;> rfl

end Sys2Proof.Laws
end

