-- ==== Sys2Proof/Laws/Events.lean ====
section
/-! SUPPORT. The event unit: everything that raising an event can do, and that it keeps the bounds of the unit. -/

namespace Sys2Proof.Laws

open Sys2Proof Sys2Proof.Machine

/-! ### Category sets -/

@[simp] theorem get_put (c : CategorySet) (v : Bool) (k l : Category) :
    (c.put v k).get l = if l = k then v else c.get l := by
  cases k <;> cases l <;> rfl

@[simp] theorem get_diff (a b : CategorySet) (k : Category) : (a.diff b).get k = (a.get k && !b.get k) := by
  cases k <;> rfl

@[simp] theorem get_inter (a b : CategorySet) (k : Category) : (a.inter b).get k = (a.get k && b.get k) := by
  cases k <;> rfl

theorem nonempty_put (c : CategorySet) (k : Category) : (c.put true k).nonempty = true := by
  cases k <;> simp [CategorySet.put, CategorySet.nonempty]

theorem noticeClass_le (n : Nat) (c : Category) : noticeClass n c ≤ 3 := by
  cases c <;> simp only [noticeClass] <;> repeat' split
  all_goals omega

/-! ### Notices -/

/-- The pending notices as the manual keeps them (R203). -/
def NoticeList (l : List PendingNotice) : Prop :=
  (l.map PendingNotice.class_).Nodup ∧ ∀ n ∈ l, n.class_ ≤ 3 ∧ n.categories.nonempty = true

/-- A class of the list after a notice has joined is one of the list before, or the notice's own. -/
theorem mem_joinNotice {cls : Nat} {c : Category} {l : List PendingNotice} {n : PendingNotice}
    (h : n ∈ joinNotice cls c l) :
    (∃ m ∈ l, n.class_ = m.class_ ∧ (m.categories.nonempty = true → n.categories.nonempty = true)) ∨
      (n.class_ = cls ∧ n.categories.nonempty = true) := by
  induction l with
  | nil =>
    obtain rfl : n = _ := by simpa [joinNotice] using h
    exact .inr ⟨rfl, nonempty_put _ c⟩
  | cons e rest ih =>
    simp only [joinNotice] at h
    split at h
    · rcases List.mem_cons.1 h with rfl | h
      · exact .inl ⟨e, by simp, rfl, fun _ => nonempty_put _ c⟩
      · exact .inl ⟨n, by simp [h], rfl, id⟩
    · rcases List.mem_cons.1 h with rfl | h
      · exact .inl ⟨n, by simp, rfl, id⟩
      · rcases ih h with ⟨m, hm, hc⟩ | hc
        · exact .inl ⟨m, by simp [hm], hc⟩
        · exact .inr hc

/-- A notice that joins keeps the form of the list. -/
theorem joinNotice_keeps {cls : Nat} (c : Category) (hcls : cls ≤ 3) {l : List PendingNotice} (h : NoticeList l) :
    NoticeList (joinNotice cls c l) := by
  refine ⟨?_, fun n hn => ?_⟩
  · obtain ⟨hd, -⟩ := h
    induction l with
    | nil => simp [joinNotice]
    | cons e rest ih =>
      simp only [List.map_cons, List.nodup_cons] at hd
      simp only [joinNotice]
      split
      · simpa using hd
      · rename_i hne
        simp only [List.map_cons, List.nodup_cons]
        refine ⟨fun hm => ?_, ih hd.2⟩
        obtain ⟨n, hn, hcn⟩ := List.mem_map.1 hm
        rcases mem_joinNotice hn with ⟨m, hm, hc, -⟩ | ⟨hc, -⟩
        · exact hd.1 (List.mem_map.2 ⟨m, hm, by rw [← hcn, hc]⟩)
        · exact hne (by rw [← hcn, hc])
  · rcases mem_joinNotice hn with ⟨m, hm, hc, hk⟩ | ⟨hc, hk⟩
    · exact ⟨by rw [hc]; exact (h.2 m hm).1, hk (h.2 m hm).2⟩
    · exact ⟨by rw [hc]; exact hcls, hk⟩

/-- A withdrawal keeps the form of the list. -/
theorem withdrawNotices_keeps (gone : CategorySet) {l : List PendingNotice} (h : NoticeList l) :
    NoticeList (withdrawNotices gone l) := by
  refine ⟨?_, fun n hn => ?_⟩
  · have sub : ((withdrawNotices gone l).map PendingNotice.class_).Sublist (l.map PendingNotice.class_) := by
      have := (List.filter_sublist (p := fun e : PendingNotice => e.categories.nonempty)
        (l := l.map fun e => { e with categories := e.categories.diff gone })).map PendingNotice.class_
      simpa [withdrawNotices, Function.comp_def] using this
    exact sub.nodup h.1
  · simp only [withdrawNotices, List.mem_filter, List.mem_map] at hn
    obtain ⟨⟨m, hm, rfl⟩, hk⟩ := hn
    exact ⟨(h.2 m hm).1, hk⟩

/-! ### Raising an event -/

/-- What setting a flag can do: the flag is set, no flag is cleared, and the queue, the counts and the backlog stand. -/
theorem setFlag_spec (n : NoticeSettings) (c : Category) (u : EventUnit) :
    (u.setFlag n c).queue = u.queue ∧ (u.setFlag n c).overflow = u.overflow ∧
      (u.setFlag n c).backlog = u.backlog ∧ (u.setFlag n c).drops = u.drops ∧
      (∀ k, (u.setFlag n c).flags.get k = (u.flags.get k || k = c)) ∧
      (NoticeList u.notices → NoticeList (u.setFlag n c).notices) := by
  unfold EventUnit.setFlag
  split
  · rename_i h
    refine ⟨rfl, rfl, rfl, rfl, fun k => ?_, id⟩
    by_cases hk : k = c <;> simp [hk, h]
  · rename_i h
    unfold EventUnit.signal
    split
    · refine ⟨rfl, rfl, rfl, rfl, fun k => ?_, id⟩
      by_cases hk : k = c <;> simp [hk]
    · split
      all_goals
        refine ⟨rfl, rfl, rfl, rfl, fun k => ?_, ?_⟩
        · by_cases hk : k = c <;> simp [EventUnit.noticeDue, hk]
        · first
          | exact id
          | exact joinNotice_keeps c (noticeClass_le ..)

/-- The cast touches the backlog and the drop count alone. -/
theorem cast_spec (k : CastSettings) (r : EventRecord) (q : Bool) (u : EventUnit) :
    u.cast k r q = { u with backlog := (u.cast k r q).backlog, drops := (u.cast k r q).drops } ∧
      (u.backlog.length ≤ Config.backlogCapacity → (u.cast k r q).backlog.length ≤ Config.backlogCapacity) ∧
      (u.drops ≤ 255 → (u.cast k r q).drops ≤ 255) := by
  unfold EventUnit.cast
  split
  · split
    · rename_i h
      exact ⟨rfl, fun _ => by simpa using h, id⟩
    · exact ⟨rfl, id, fun _ => by simp⟩
  · exact ⟨rfl, id, id⟩

/-- Where the queue has room an event is queued at its tail (R198). -/
theorem take_queue_room (n : NoticeSettings) (k : CastSettings) (r : EventRecord) {u : EventUnit}
    (h : u.queue.length < Config.eventCapacity) :
    (u.take n k r).queue = u.queue ++ [r] ∧ (u.take n k r).overflow = u.overflow := by
  have hc := (cast_spec k r (u.queue.length < Config.eventCapacity) (u.enqueue n r)).1
  unfold EventUnit.take
  rw [hc]
  unfold EventUnit.enqueue
  simp only [if_pos h, (setFlag_spec ..).1, (setFlag_spec ..).2.1, and_self]

/-- Where it is full an event is lost, and the overflow count goes up to its bound (R198). -/
theorem take_queue_full (n : NoticeSettings) (k : CastSettings) (r : EventRecord) {u : EventUnit}
    (h : Config.eventCapacity ≤ u.queue.length) :
    (u.take n k r).queue = u.queue ∧ (u.take n k r).overflow = min (u.overflow + 1) 255 := by
  have hc := (cast_spec k r (u.queue.length < Config.eventCapacity) (u.enqueue n r)).1
  unfold EventUnit.take
  rw [hc]
  unfold EventUnit.enqueue
  simp only [if_neg (Nat.not_lt.2 h), (setFlag_spec ..).1, (setFlag_spec ..).2.1, and_self]

/-- The event unit keeps its bounds and the form of its notices whatever it takes. -/
theorem take_keeps (n : NoticeSettings) (k : CastSettings) (r : EventRecord) {u : EventUnit}
    (h : u.queue.length ≤ Config.eventCapacity ∧ u.overflow ≤ 255 ∧ u.backlog.length ≤ Config.backlogCapacity ∧
      u.drops ≤ 255) (hn : NoticeList u.notices) :
    ((u.take n k r).queue.length ≤ Config.eventCapacity ∧ (u.take n k r).overflow ≤ 255 ∧
      (u.take n k r).backlog.length ≤ Config.backlogCapacity ∧ (u.take n k r).drops ≤ 255) ∧
      NoticeList (u.take n k r).notices := by
  have hc := cast_spec k r (u.queue.length < Config.eventCapacity) (u.enqueue n r)
  have he : (u.enqueue n r).backlog = u.backlog ∧ (u.enqueue n r).drops = u.drops ∧
      NoticeList (u.enqueue n r).notices := by
    unfold EventUnit.enqueue
    split
    · exact ⟨(setFlag_spec ..).2.2.1, (setFlag_spec ..).2.2.2.1, (setFlag_spec ..).2.2.2.2.2 hn⟩
    · exact ⟨(setFlag_spec ..).2.2.1, (setFlag_spec ..).2.2.2.1, (setFlag_spec ..).2.2.2.2.2 hn⟩
  refine ⟨⟨?_, ?_, ?_, ?_⟩, ?_⟩
  · by_cases hq : u.queue.length < Config.eventCapacity
    · rw [(take_queue_room n k r hq).1]
      simpa using hq
    · rw [(take_queue_full n k r (by omega)).1]
      exact h.1
  · by_cases hq : u.queue.length < Config.eventCapacity
    · rw [(take_queue_room n k r hq).2]
      exact h.2.1
    · rw [(take_queue_full n k r (by omega)).2]
      omega
  · exact hc.2.1 (by rw [he.1]; exact h.2.2.1)
  · exact hc.2.2 (by rw [he.2.1]; exact h.2.2.2)
  · unfold EventUnit.take
    rw [hc.1]
    exact he.2.2

/-- Only the event unit differs. -/
theorem raise_only (kind : EventKind) (n : Nat) (e : Option Edge) (v : Option Nat) (s : State) :
    raise kind n e v s = { s with events := (raise kind n e v s).events } := rfl

/-- An event raised where the queue has room stands at its tail. -/
theorem raise_queue (kind : EventKind) (n : Nat) (e : Option Edge) (v : Option Nat) {s : State}
    (h : s.events.queue.length < Config.eventCapacity) :
    (raise kind n e v s).events.queue = s.events.queue ++ [⟨kind, n, e, bankClock s, v⟩] :=
  (take_queue_room _ _ _ h).1

theorem raise_keeps_events (kind : EventKind) (n : Nat) (e : Option Edge) (v : Option Nat) {s : State}
    (h : EventsBounded s) (hn : NoticesSound s) :
    EventsBounded (raise kind n e v s) ∧ NoticesSound (raise kind n e v s) :=
  take_keeps _ _ _ h hn

/-- The queue only grows at its tail, so what stands in it stands on. -/
theorem raise_queue_grows (kind : EventKind) (n : Nat) (e : Option Edge) (v : Option Nat) (s : State) :
    s.events.queue <+: (raise kind n e v s).events.queue := by
  by_cases h : s.events.queue.length < Config.eventCapacity
  · rw [raise_queue kind n e v h]
    exact List.prefix_append ..
  · have := (take_queue_full s.settings.notice s.settings.cast (EventRecord.mk kind n e (bankClock s) v)
      (u := s.events) (by omega)).1
    exact ⟨[], by rw [List.append_nil]; exact this.symm⟩

end Sys2Proof.Laws
end

