-- ==== Sys2Proof/Laws/Memory.lean ====
section
/-! SUPPORT. The wrong-bit list: what reading and writing it do, and that every operation keeps its canonical form. -/

namespace Sys2Proof.Laws

open Sys2Proof Sys2Proof.Machine

/-- The canonical form of a wrong-bit list. -/
def Canonical (l : List (Nat × WordBits)) : Prop :=
  (l.map Prod.fst).Pairwise (· < ·) ∧ ∀ e ∈ l, e.1 < 512 ∧ e.2 ≠ 0

theorem wf_iff (m : Memory) : m.wf = true ↔ Canonical m.wrongBits := by
  simp [Memory.wf, Canonical]

/-- Every entry of a list with an entry written is the new one or an old one. -/
theorem mem_setWrongBits {w : Nat} {m : WordBits} {l : List (Nat × WordBits)} {e : Nat × WordBits}
    (h : e ∈ setWrongBits w m l) : e ∈ l ∨ (e = (w, m) ∧ m ≠ 0) := by
  induction l with
  | nil =>
    simp only [setWrongBits] at h
    split at h <;> simp_all
  | cons a rest ih =>
    simp only [setWrongBits] at h
    split at h
    · rcases List.mem_cons.1 h with h | h
      · exact .inl (by simp [h])
      · rcases ih h with h | h
        · exact .inl (by simp [h])
        · exact .inr h
    · split at h <;> split at h <;> simp_all <;> tauto

/-- A write of a word keeps the canonical form. -/
theorem canonical_setWrongBits {w : Nat} {m : WordBits} (hw : w < 512) {l : List (Nat × WordBits)}
    (h : Canonical l) : Canonical (setWrongBits w m l) := by
  refine ⟨?_, fun e he => ?_⟩
  · obtain ⟨hp, -⟩ := h
    induction l with
    | nil => simp only [setWrongBits]; split <;> simp
    | cons a rest ih =>
      simp only [List.map_cons, List.pairwise_cons] at hp
      simp only [setWrongBits]
      split
      · rename_i hlt
        simp only [List.map_cons, List.pairwise_cons]
        refine ⟨fun v hv => ?_, ih hp.2⟩
        obtain ⟨e, he, rfl⟩ := List.mem_map.1 hv
        rcases mem_setWrongBits he with he | ⟨rfl, -⟩
        · exact hp.1 _ (List.mem_map.2 ⟨e, he, rfl⟩)
        · exact hlt
      · split
        · rename_i heq
          split
          · exact hp.2
          · simp only [List.map_cons, List.pairwise_cons]
            exact ⟨fun v hv => heq ▸ hp.1 v hv, hp.2⟩
        · split
          · simpa using hp
          · simp only [List.map_cons, List.pairwise_cons]
            refine ⟨fun v hv => ?_, hp⟩
            rcases List.mem_cons.1 hv with rfl | hv
            · omega
            · exact lt_of_le_of_lt (by omega) (hp.1 v hv)
  · rcases mem_setWrongBits he with he | ⟨rfl, hm⟩
    · exact h.2 e he
    · exact ⟨hw, hm⟩

/-- A full write never adds an entry, so it keeps the form whatever the word. -/
theorem canonical_clear {w : Nat} {l : List (Nat × WordBits)} (h : Canonical l) : Canonical (setWrongBits w 0 l) := by
  by_cases hw : w < 512
  · exact canonical_setWrongBits hw h
  · refine ⟨?_, fun e he => ?_⟩
    · have : ∀ l : List (Nat × WordBits), (∀ e ∈ l, e.1 < 512) → setWrongBits w 0 l = l := by
        intro l hl
        induction l with
        | nil => simp [setWrongBits]
        | cons a rest ih =>
          have := hl a (by simp)
          simp only [setWrongBits]
          rw [if_pos (by omega), ih (fun e he => hl e (by simp [he]))]
      rw [this l (fun e he => (h.2 e he).1)]
      exact h.1
    · rcases mem_setWrongBits he with he | ⟨-, hm⟩
      · exact h.2 e he
      · exact absurd rfl hm

/-- Reading the wrong bits of a word just written. -/
theorem wrongBitsIn_setWrongBits_same {w : Nat} {m : WordBits} {l : List (Nat × WordBits)} (h : Canonical l) :
    wrongBitsIn (setWrongBits w m l) w = m := by
  obtain ⟨hp, -⟩ := h
  induction l with
  | nil =>
    simp only [setWrongBits]
    split <;> simp_all [wrongBitsIn]
  | cons a rest ih =>
    simp only [List.map_cons, List.pairwise_cons] at hp
    have above : ∀ e ∈ rest, a.1 < e.1 := fun e he => hp.1 _ (List.mem_map.2 ⟨e, he, rfl⟩)
    simp only [setWrongBits]
    split
    · rename_i hlt
      have : ¬ a.1 = w := by omega
      simpa [wrongBitsIn, List.find?_cons, this] using ih hp.2
    · split
      · rename_i heq
        split
        · rename_i hm
          have none : rest.find? (fun e => decide (e.1 = w)) = none := by
            rw [List.find?_eq_none]
            intro e he
            have := above e he
            simp only [decide_eq_true_eq]
            omega
          simp [wrongBitsIn, none, hm]
        · simp [wrongBitsIn]
      · split
        · rename_i hm
          have none : (a :: rest).find? (fun e => decide (e.1 = w)) = none := by
            rw [List.find?_eq_none]
            intro e he
            simp only [decide_eq_true_eq]
            rcases List.mem_cons.1 he with rfl | he
            · omega
            · have := above e he
              omega
          simp [wrongBitsIn, none, hm]
        · simp [wrongBitsIn]

/-- A write of a word leaves the wrong bits of every other word. -/
theorem wrongBitsIn_setWrongBits_other {v w : Nat} (m : WordBits) (l : List (Nat × WordBits)) (h : v ≠ w) :
    wrongBitsIn (setWrongBits w m l) v = wrongBitsIn l v := by
  have hwv : ¬ w = v := fun e => h e.symm
  induction l with
  | nil =>
    simp only [setWrongBits]
    split <;> simp [wrongBitsIn, hwv]
  | cons a rest ih =>
    have key : ∀ r : List (Nat × WordBits), wrongBitsIn r v = wrongBitsIn rest v →
        wrongBitsIn (a :: r) v = wrongBitsIn (a :: rest) v := by
      intro r hr
      simp only [wrongBitsIn, List.find?_cons] at hr ⊢
      by_cases ha : a.1 = v
      · simp [ha]
      · simpa [ha] using hr
    simp only [setWrongBits]
    split
    · exact key _ ih
    · split
      · rename_i heq
        have : ¬ a.1 = v := by omega
        split <;> simp [wrongBitsIn, hwv, this]
      · split <;> simp [wrongBitsIn, hwv]

/-! ### The operations of the memory -/

/-- A full write keeps the canonical form. -/
theorem rewrite_wf {m : Memory} (w : Nat) (h : m.wf = true) : (m.rewrite w).wf = true :=
  (wf_iff _).2 (canonical_clear ((wf_iff m).1 h))

theorem foldl_rewrite_wf (ws : List Nat) {m : Memory} (h : m.wf = true) : (ws.foldl Memory.rewrite m).wf = true := by
  induction ws generalizing m with
  | nil => exact h
  | cons w rest ih => exact ih (rewrite_wf w h)

theorem rewriteWords_wf (ws : List Nat) {s : State} (h : s.memory.wf = true) : (rewriteWords ws s).memory.wf = true :=
  foldl_rewrite_wf ws h

theorem markWord_wf {w : Nat} (hw : w < 512) (m : WordBits) {s : State} (h : s.memory.wf = true) :
    (markWord w m s).memory.wf = true :=
  (wf_iff _).2 (canonical_setWrongBits hw ((wf_iff s.memory).1 h))

theorem correct_wf {m : Memory} (w : Nat) (h : m.wf = true) : (m.correct w).wf = true := h

theorem list_wf {m : Memory} (w : Nat) (h : m.wf = true) : (m.list w).wf = true := by
  unfold Memory.list
  split
  · exact h
  · split <;> exact h

theorem warm_wf {m : Memory} (code : Nat) (h : m.wf = true) : (m.warm code).wf = true := by
  have : (m.warm code).wrongBits = (allWorkWords.foldl Memory.rewrite m).wrongBits := by simp only [Memory.warm]
  rw [wf_iff, this]
  exact (wf_iff _).1 (foldl_rewrite_wf _ h)

/-- A cold restart leaves no wrong bit. -/
theorem cold_wrongBits (p : Pins) (q : List Instr) : (State.cold p q).memory.wrongBits = [] := by
  simp only [State.cold, Memory.cold]

theorem cold_wf (p : Pins) (q : List Instr) : (State.cold p q).memory.wf = true := by
  rw [wf_iff, cold_wrongBits]
  exact ⟨List.Pairwise.nil, by simp⟩

/-- A full write of some words changes only the memory's marks. -/
theorem rewrite_fields (m : Memory) (w : Nat) :
    m.rewrite w = { m with
      wrongBits := setWrongBits w 0 m.wrongBits, writeBacks := m.writeBacks.filter (fun v => decide (v ≠ w)) } := rfl

/-- A word that is written holds no wrong bit and no write-back. -/
theorem rewrite_good {m : Memory} (w : Nat) (h : m.wf = true) :
    wrongBitsIn (m.rewrite w).wrongBits w = 0 ∧ w ∉ (m.rewrite w).writeBacks := by
  refine ⟨wrongBitsIn_setWrongBits_same ((wf_iff m).1 h), ?_⟩
  simp [Memory.rewrite]

/-- A write of one word leaves the wrong bits of the others. -/
theorem rewrite_other (m : Memory) {v w : Nat} (h : v ≠ w) :
    wrongBitsIn (m.rewrite w).wrongBits v = wrongBitsIn m.wrongBits v :=
  wrongBitsIn_setWrongBits_other 0 _ h

/-! ### A memory with nothing to find -/

/-- A write into a clean memory leaves it as it is. -/
theorem rewrite_clean {m : Memory} (w : Nat) (h : m.wrongBits = []) (hb : m.writeBacks = []) : m.rewrite w = m := by
  cases m
  simp_all [Memory.rewrite, setWrongBits]

@[simp] theorem rewriteWords_clean (ws : List Nat) {s : State} (h : Undisturbed s) : rewriteWords ws s = s := by
  have : ws.foldl Memory.rewrite s.memory = s.memory := by
    induction ws with
    | nil => rfl
    | cons w rest ih => rw [List.foldl_cons, rewrite_clean w h.2.1 h.2.2, ih]
  simp [rewriteWords, this]

/-- Work on a clean memory writes nothing more. -/
theorem noteWrites_clean (work : Work) (after : State) {before : State} (h : before.memory.Clean) :
    noteWrites work before after = after := if_pos h

/-- The words that a piece of work stores are the memory's own affair (R187). -/
theorem noteWrites_memory (work : Work) (before after : State) :
    noteWrites work before after = { after with memory := (noteWrites work before after).memory } := by
  unfold noteWrites
  split <;> rfl

/-! ### Checked reads with nothing to find -/

/-- Where no word is wrong none is left to read. -/
theorem nextWrong_clean (done ws : List Nat) {s : State} (h : s.memory.wrongBits = []) : nextWrong done ws s = none := by
  simp [nextWrong, h, wrongBitsIn]

/-- Reads in turn end where no word that is needed is wrong. -/
theorem readInTurn_done {read : Nat → State → State} {need : State → List Nat} {done : List Nat} {s : State} (n : Nat)
    (h : nextWrong done (need s) s = none) : readInTurn read need n done s = s := by
  cases n with
  | zero => rfl
  | succ n => simp only [readInTurn, h]

/-- Reads in turn go on with the first word that is needed, wrong and not yet read. -/
theorem readInTurn_next {read : Nat → State → State} {need : State → List Nat} {done : List Nat} {s : State} {w : Nat} (n : Nat)
    (h : nextWrong done (need s) s = some w) :
    readInTurn read need (n + 1) done s = readInTurn read need n (w :: done) (read w s) := by
  simp only [readInTurn, h]

/-- Where no word that is needed is wrong, the reads change nothing. -/
theorem check_good {need : State → List Nat} {s : State} (h : nextWrong [] (need s) s = none) : check need s = s := by
  unfold check
  cases s.memory.wrongBits.length with
  | zero => rfl
  | succ n => rw [checkWith, readInTurn_done _ h]

theorem check_clean (need : State → List Nat) {s : State} (h : s.memory.wrongBits = []) : check need s = s :=
  check_good (nextWrong_clean _ _ h)

/-- Work whose words are all good is carried out on the state as it stands. -/
theorem checked_clean (need : State → List Nat) (work : Work) {s : State} (h : s.memory.Clean) :
    checked need work s = work plain s := by
  rw [checked, behind, check_clean _ h.1]
  exact noteWrites_clean work _ h

theorem foundDamage_clean (after : State) {before : State} (h : before.memory.wrongBits = []) :
    foundDamage before after = false := by
  simp [foundDamage, h]

theorem judgeFound_clean (after : State) {before : State} (h : before.memory.wrongBits = []) :
    judgeFound before after = after := by
  simp [judgeFound, foundDamage_clean after h]

theorem carryOut_clean (need : State → List Nat) (work : Work) {s : State} (h : s.memory.Clean) :
    carryOut need work s = work plain s := by
  rw [carryOut, judgeFound_clean _ h.1, checked_clean _ _ h]

/-- A selection on a part whose words are all good is the selection itself. -/
theorem selectNow_clean {s : State} (h : s.memory.Clean) : selectNow checked s = select s := checked_clean _ _ h

/-- On a clean memory an owner's answer is its act. -/
theorem answer_clean (row : RequestRow) (p : Port) (body : List Byte) {s : State} (h : s.memory.Clean) :
    row.answer p body s = row.act plain p body s := by
  simp only [RequestRow.answer, noteWrites_clean _ _ h]

/-! ### Work that uses no word -/

/-- Work that notes nothing in a trial and raises no event uses no word. -/
theorem usedWords_idle {work : Work} {s : State} (hd : (trial work s).memory.damageList = [])
    (he : (trial work s).events.queue = []) : usedWords work s = [] := by
  simp [usedWords, hd, he]

/-- The scrub's own work uses no word, and neither does work that does nothing. -/
theorem usedWords_nextScrub (w : Nat) (s : State) : usedWords (fun _ => nextScrub w) s = [] := usedWords_idle rfl rfl

theorem usedWords_nothing (s : State) : usedWords nothing s = [] := usedWords_idle rfl rfl

/-- What no field of a list touches stands behind a copy of those fields: of a misread working word, what other words hold. -/
theorem copyFields_keep {α : Type} (g : StationWork → α) (src : StationWork) {l : List WorkField}
    (h : ∀ f ∈ l, ∀ w, g (src.copyField w f) = g w) (w : StationWork) :
    g (l.foldl (StationWork.copyField src) w) = g w := by
  induction l generalizing w with
  | nil => rfl
  | cons f rest ih =>
    rw [List.foldl_cons, ih (fun f hf => h f (List.mem_cons_of_mem _ hf)), h f List.mem_cons_self]

/-- An UNUSED station stays UNUSED, with its damaged mark clear, where fields of its record go back to their cold values (R27). -/
theorem chill_unused (l : List WorkField) {w : StationWork} (h : w.state = .unused) (hd : w.damaged = false) :
    (l.foldl StationWork.chill w).state = .unused ∧ (l.foldl StationWork.chill w).damaged = false := by
  induction l generalizing w with
  | nil => exact ⟨h, hd⟩
  | cons f rest ih => cases f <;> exact ih (by first | exact h | rfl) (by first | exact hd | rfl)

/-- Damage of an UNUSED station's record rewrites the word found alone (R27, R190): wrong bits of its other words stay. -/
theorem damageUnused_memory (i : StationIx) (k : Nat) (s : State) :
    (damageUnused i k s).memory = s.memory.rewrite (recordBase i + k) := by
  unfold damageUnused rewriteWords
  split <;> rfl

end Sys2Proof.Laws
end

