-- ==== Sys2Proof/Laws/Plain.lean ====
section
/-! SUPPORT. Work whose words are all good: what each operation of the table, the drive, the classifier, the measurement unit and
the trip unit comes to, with its reads and stores out of the way. -/

namespace Sys2Proof.Laws

open Sys2Proof Sys2Proof.Machine

variable (s : State)

/-! ### The station table -/

theorem enterState_plain (i : StationIx) (new : StationState) (l : List WorkField) (f : StationWork → StationWork) :
    enterState plain i new l f s =
      tellSampler plain i (s.work i).state new (raise .state (stationNumber i) none (some new.eventValue)
        (s.setWork i { f (s.work i) with state := new })) := rfl

theorem settleReached_plain (i : StationIx) :
    settleReached plain i s =
      if sampleable (s.setWork i { s.work i with settleExpiry := none }) i
      then addDemand plain i (s.setWork i { s.work i with settleExpiry := none })
      else s.setWork i { s.work i with settleExpiry := none } := rfl

/-- The working part behind a completion at the present target (R30). -/
def completedWork (s : State) (i : StationIx) : StationWork :=
  { s.work i with lastMoveDone := some (bankClock s), settleExpiry := expiryAfter s s.settings.bank.settleTime }

theorem reportCompleted_plain (i : StationIx) (target : Nat) :
    reportCompleted plain i target s =
      if target = (s.work i).target then
        if s.settings.bank.settleTime = 0 then settleReached plain i (s.setWork i (completedWork s i))
        else s.setWork i (completedWork s i)
      else s := rfl

theorem haltReport_plain (i : StationIx) (cause : FaultCause) :
    haltReport plain i cause s =
      if faultTaken cause (s.work i).state (motionStatus s i) then haltFault plain i cause s else s := rfl

/-! ### The drive -/

theorem beginMotion_plain (e : QueuedMove) :
    beginMotion plain e s =
      match (s.work e.station).position with
      | none => haltReport plain e.station .valveStall (raise .stall (stationNumber e.station) none none s)
      | some p =>
        if within p e.target Config.deadband then reportCompleted plain e.station e.target s
        else if within p e.target s.settings.bank.inchBand then
          startMotor ⟨e.station, e.target, s.elapsed, p, inchPeriodFrom s (some p) e.target 0⟩ s
        else startMotor ⟨e.station, e.target, s.elapsed, p, runningFrom s (toward p e.target) (some p)⟩ s := rfl

theorem grantLoop_zero : grantLoop plain 0 s = s := rfl

theorem grantLoop_plain (fuel : Nat) :
    grantLoop plain (fuel + 1) s =
      match s.drive.queue with
      | [] => s
      | e :: rest =>
        if grantOpen s then grantLoop plain fuel (beginMotion plain e { s with drive := { s.drive with queue := rest } })
        else s := rfl

theorem inchAt_plain (m : Motion) (position : Option Nat) (pulses : Nat) :
    inchAt plain m position pulses s = setMotion { m with phase := inchPeriodFrom s position m.target pulses } s := rfl

theorem retarget_plain (m : Motion) (target : Nat) :
    retarget plain m target s =
      if m.target = target then s
      else match (s.work m.station).position with
        | none => setMotion { m with target := target } s
        | some p =>
          match m.phase with
          | .reversing _ => setMotion { m with target := target } s
          | .running d _ _ =>
            if within p target Config.deadband then completeMotion plain m.station target s
            else if within p target s.settings.bank.inchBand then inchAt plain { m with target := target } (some p) 0 s
            else if ahead d p target then setMotion { m with target := target } s
            else setMotion { m with target := target, phase := .reversing (s.elapsed + Config.reversalPause) } s
          | .inching .. =>
            if within p target Config.deadband then completeMotion plain m.station target s
            else if within p target s.settings.bank.inchBand then inchAt plain { m with target := target } (some p) 0 s
            else setMotion { m with target := target, phase := runningFrom s (toward p target) (some p) } s := rfl

theorem takeMove_plain (i : StationIx) (target : Nat) :
    takeMove plain i target s =
      if queued s i then replaceQueued i target s
      else match motionOf s i with
        | some m => retarget plain m target s
        | none => if atOpening s i target then reportCompleted plain i target s else queueMove plain i target s := rfl

theorem applyTarget_plain (i : StationIx) (requested : Nat) :
    applyTarget plain i requested s =
      if clampTarget (s.cfg i) (s.work i).state requested = (s.work i).target then s
      else moveRequest plain i (clampTarget (s.cfg i) (s.work i).state requested) (s.setWork i { s.work i with
        target := clampTarget (s.cfg i) (s.work i).state requested, fresh := false, settleExpiry := none }) := rfl

theorem faultReport_plain (i : StationIx) (cause : FaultCause) :
    faultReport plain i cause s =
      if faultTaken cause (s.work i).state (motionStatus s i) then
        match cause with
        | .flowLine | .sampleLine | .record => driveFault plain i cause s
        | .valveStall | .valveTimeout | .positionLine => grantTest plain (haltFault plain i cause s)
      else s := rfl

theorem stallTest_plain (m : Motion) (d : Direction) (ref : Option Nat) (stallAt : Nat) :
    stallTest plain m d ref stallAt s =
      let r := stallReference ref stallAt s.elapsed (s.work m.station).position
      if r.2 + s.settings.bank.stallTime * 1000 ≤ s.elapsed then stallMotion plain m.station s
      else setMotion { m with phase := .running d r.1 r.2 } s := rfl

theorem seePosition_plain (m : Motion) :
    seePosition plain m s =
      match (s.work m.station).position with
      | none =>
        match m.phase with
        | .running d ref stallAt => stallTest plain m d ref stallAt s
        | _ => s
      | some p =>
        match m.phase with
        | .running d ref stallAt =>
          if within p m.target Config.deadband then grantTest plain (completeMotion plain m.station m.target s)
          else if within p m.target s.settings.bank.inchBand || passed d p m.target then
            inchAt plain { m with lastSeen := p } (some p) 0 s
          else stallTest plain { m with lastSeen := p } d ref stallAt s
        | .inching .. =>
          if within p m.target Config.deadband then grantTest plain (completeMotion plain m.station m.target s)
          else setMotion { m with lastSeen := p } s
        | .reversing _ => setMotion { m with lastSeen := p } s := rfl

theorem nextInchPeriod_plain (m : Motion) (pulses : Nat) :
    nextInchPeriod plain m pulses s =
      if Config.inchPulses ≤ pulses then missMotion plain m s
      else if atOpening s m.station m.target then grantTest plain (completeMotion plain m.station m.target s)
      else inchAt plain m (s.work m.station).position pulses s := rfl

theorem endReversal_plain (m : Motion) :
    endReversal plain m s =
      match (s.work m.station).position with
      | none => setMotion { m with phase := runningFrom s (toward m.lastSeen m.target) none } s
      | some p =>
        if within p m.target Config.deadband then grantTest plain (completeMotion plain m.station m.target s)
        else if within p m.target s.settings.bank.inchBand then inchAt plain m (some p) 0 s
        else setMotion { m with phase := runningFrom s (toward p m.target) (some p) } s := rfl

theorem timeoutDue_plain :
    timeoutDue plain s = ((s.drive.motions.filter (fun m => timeoutAt s m ≤ s.elapsed)).map Motion.station).foldl
      (fun t i => timeoutMotion plain i t) s := rfl

theorem runStation_plain (i : StationIx) :
    runStation plain i s = if runOrderWants s i then queueMove plain i (s.work i).target s else s := rfl

/-- The queue is flushed. -/
def flushed (s : State) : State := { s with drive := { s.drive with queue := [] } }

/-- The state behind the retargets of a trip order (R143, step 2). -/
def closing (s : State) : State := (flushed s).drive.motions.foldl (fun t m => retarget plain m 0 t) (flushed s)

theorem tripOrder_plain (changed : List StationIx) :
    tripOrder plain changed s =
      grantTest plain ((allStations.filter fun i =>
          tripOrderExamines (closing s) i && positionOr0 (closing s) i ≤ Config.deadband
            && (i ∈ s.drive.queue.map QueuedMove.station || i ∈ changed)).foldl
        (fun t i => reportCompleted plain i 0 t)
        ((closeOrder (closing s)).foldl (fun t i => queueMove plain i 0 t) (closing s))) := by
  simp only [tripOrder, reportEnds_plain]
  rfl

/-! ### The classifier -/

theorem applyTransition_plain (i : StationIx) (a : Area) :
    applyTransition plain i a s =
      match (s.work i).state with
      | .producing => classifyProducing plain i a s
      | .quarantined => classifyQuarantined plain i a s
      | _ => s := rfl

theorem classifyProducing_plain (i : StationIx) (a : Area) :
    classifyProducing plain i a s =
      if a = .poor then
        if (s.work i).quarantineCount + 1 ≤ (s.cfg i).quarantineLimit
        then quarantine plain i ((s.work i).quarantineCount + 1) s
        else exhaust plain i s
      else s := rfl

theorem classifyQuarantined_plain (i : StationIx) (a : Area) :
    classifyQuarantined plain i a s =
      if a = .good then
        if (s.cfg i).recoveryCount ≤ (s.work i).recoveryRun + 1 then recover plain i s
        else s.setWork i { s.work i with recoveryRun := (s.work i).recoveryRun + 1 }
      else s.setWork i { s.work i with recoveryRun := 0 } := rfl

theorem fileResult_plainly (r : StationResult) :
    fileResult plainly r s =
      if sampleable s r.station then applyTransition plain r.station (areaFor s r) (storeResult plain r s) else s := rfl

/-! ### The measurement unit, the balancer and the trip unit -/

theorem flowStep_plain (i : StationIx) :
    flowStep i plain s =
      match inputValue 4000 (dpInput s i) with
      | none =>
        if (dpInput s i).status = .fault then handFlow plain i (.invalid (bankClock s)) (setWindow i none s) else s
      | some value =>
        let w := extendWindow s.settings.bank.windowLength value ((dpInput s i).status = .saturated)
          s.measure.windows[i.val]
        if w.length ≤ w.count then
          handFlow plain i (windowRecord (s.cfg i).k (methaneFor s i) w (bankClock s)) (setWindow i none s)
        else setWindow i (some w) s := rfl

theorem convert_plainly (codes : Vector Code 35) :
    convert plainly codes s = stepFlows plainly (movePositions plainly
      (takePositions s.measure.inputs plain (readInputs codes s))) := by simp only [convert, plainly_eq, nothing_eq]

theorem roundChange_plain (a : Adjustment) :
    roundChange a plain s =
      if (s.work a.station).state = .producing && !(s.cfg a.station).pinned then applyTarget plain a.station a.new s
      else s := rfl

theorem standDown_plain (i : StationIx) :
    standDown i plain s =
      if (s.work i).state.active then
        dropClaim i (raise .state (stationNumber i) none (some StationState.standby.eventValue)
          (s.setWork i { (s.work i).closed with state := .standby, restartMark := true, recoveryRun := 0 }))
      else s.setWork i (s.work i).closed := rfl

/-- The unit's part of a trip, the stand-down, the drive's order and the sampler, one behind the other (R170, R154). -/
theorem trip_plainly (o : TripOrigin) :
    trip plainly o s = startSampler plain (tripOrder plain (standDownChanges (tripUnit o s))
      (standDownAll plainly (tripUnit o s))) := by
  simp only [trip, plainly_eq, nothing_eq]

theorem evaluateTrip_plainly (need : State → List Nat) :
    evaluateTrip plainly need s = tripIfDue plainly (followOutput (refreshOutput s)) := by
  simp only [evaluateTrip, plainly_eq, evaluateOutput, plain_look]

end Sys2Proof.Laws
end

