-- ==== Sys2Proof/Laws/Selection.lean ====
section
/-! SUPPORT. The sampler's selection: what one selection can do, and what the sampler's answers to a change of state leave
alone. -/

namespace Sys2Proof.Laws

open Sys2Proof Sys2Proof.Machine

/-- Only the sampler differs, and of the sampler only what a selection may move: the phase, the sample in flight, the demand
queue, the pointer, the pass and the reference-due flag. -/
structure Reselected (s t : State) : Prop where
  only : t = { s with sampler := t.sampler }
  claim17 : t.sampler.claim17 = s.sampler.claim17
  claim18 : t.sampler.claim18 = s.sampler.claim18
  marks : t.sampler.marks = s.sampler.marks
  sweepEntries : t.sampler.sweepEntries = s.sampler.sweepEntries
  classes : t.sampler.classes = s.sampler.classes
  faultCount : t.sampler.faultCount = s.sampler.faultCount
  analyserFault : t.sampler.analyserFault = s.sampler.analyserFault
  parked : t.sampler.parked = s.sampler.parked
  lastReference : t.sampler.lastReference = s.sampler.lastReference

theorem Reselected.refl (s : State) : Reselected s s := ⟨rfl, rfl, rfl, rfl, rfl, rfl, rfl, rfl, rfl, rfl⟩

theorem Reselected.trans {s t u : State} (h : Reselected s t) (k : Reselected t u) : Reselected s u where
  only := by rw [k.only, h.only]
  claim17 := k.claim17.trans h.claim17
  claim18 := k.claim18.trans h.claim18
  marks := k.marks.trans h.marks
  sweepEntries := k.sweepEntries.trans h.sweepEntries
  classes := k.classes.trans h.classes
  faultCount := k.faultCount.trans h.faultCount
  analyserFault := k.analyserFault.trans h.analyserFault
  parked := k.parked.trans h.parked
  lastReference := k.lastReference.trans h.lastReference

/-- The sweep step moves only the pointer, the pass flag, the pass count and the reference-due flag. -/
theorem sweepSearch_keeps (ok : StationIx → Bool) (n fuel : Nat) (k : Sampler) :
    (sweepSearch ok n fuel k).2 = { k with
      pointer := (sweepSearch ok n fuel k).2.pointer
      passSampled := (sweepSearch ok n fuel k).2.passSampled
      passCount := (sweepSearch ok n fuel k).2.passCount
      referenceDue := (sweepSearch ok n fuel k).2.referenceDue } := by
  have advance : ∀ k : Sampler, k.advance n = { k with
      pointer := (k.advance n).pointer, passSampled := (k.advance n).passSampled
      passCount := (k.advance n).passCount, referenceDue := (k.advance n).referenceDue } := by
    intro k
    unfold Sampler.advance Sampler.wrap
    split <;> rfl
  induction fuel generalizing k with
  | zero => rfl
  | succ fuel ih =>
    simp only [sweepSearch]
    split
    · rfl
    · split
      · rw [advance]
      · rw [ih, advance k]

/-- The station a sweep step finds stands in the list and passes the test. -/
theorem sweepSearch_found {ok : StationIx → Bool} {n fuel : Nat} {k : Sampler} {i : StationIx}
    (h : (sweepSearch ok n fuel k).1 = some i) : ok i = true ∧ i ∈ k.sweepList := by
  induction fuel generalizing k with
  | zero => simp [sweepSearch] at h
  | succ fuel ih =>
    simp only [sweepSearch] at h
    split at h
    · simp at h
    · rename_i j hj
      split at h
      · rename_i hok
        obtain rfl : j = i := by simpa using h
        exact ⟨hok, List.mem_of_getElem? hj⟩
      · obtain ⟨a, b⟩ := ih h
        refine ⟨a, ?_⟩
        simp only [Sampler.advance, Sampler.wrap] at b
        split at b <;> exact b

theorem beginSample_reselected (source : SampleSource) (line : Line) (s : State) :
    Reselected s (beginSample source line s) := ⟨rfl, rfl, rfl, rfl, rfl, rfl, rfl, rfl, rfl, rfl⟩

/-- A state whose sampler took a sweep step. -/
theorem sweepSearch_reselected (ok : StationIx → Bool) (n fuel : Nat) (s : State) :
    Reselected s { s with sampler := (sweepSearch ok n fuel s.sampler).2 } := by
  have h := sweepSearch_keeps ok n fuel s.sampler
  refine ⟨rfl, ?_, ?_, ?_, ?_, ?_, ?_, ?_, ?_, ?_⟩ <;> · simp only; rw [h]

/-- Everything a selection can do: nothing where the sampler is not IDLE or holds a parked result, else only the sampler
moves. -/
theorem select_reselected (s : State) : Reselected s (select s) := by
  have emptied : Reselected s { s with sampler := { s.sampler with demand := [] } } :=
    ⟨rfl, rfl, rfl, rfl, rfl, rfl, rfl, rfl, rfl, rfl⟩
  unfold select
  split
  · split
    · exact ⟨rfl, rfl, rfl, rfl, rfl, rfl, rfl, rfl, rfl, rfl⟩
    · dsimp only
      split
      · exact emptied.trans (beginSample_reselected ..)
      · refine emptied.trans ?_
        unfold selectSweep
        dsimp only
        have swept := sweepSearch_reselected (sampleable { s with sampler := { s.sampler with demand := [] } })
          s.settings.bank.referenceInterval s.sampler.sweepList.length
          { s with sampler := { s.sampler with demand := [] } }
        split
        · exact swept.trans (beginSample_reselected ..)
        · split
          · exact swept.trans (beginSample_reselected ..)
          · exact swept
  · exact .refl s

/-- A sampler that is not IDLE, or holds a parked result, selects nothing (R55, R78). -/
theorem select_of_not_free {s : State} (h : s.sampler.phase ≠ .idle ∨ s.sampler.parked.isSome = true) :
    select s = s := by
  unfold select
  rw [if_neg]
  rcases h with h | h
  · simp [h]
  · cases hp : s.sampler.parked <;> simp_all

/-- Where the first sampleable demand entry stands at the head, it is sampled (R65). -/
theorem select_demand {s : State} {i : StationIx} {rest : List StationIx} (hphase : s.sampler.phase = .idle)
    (hparked : s.sampler.parked = none) (hd : s.sampler.demand = i :: rest) (hi : sampleable s i = true) :
    select s = beginSample (.demand i) (lineInUse s i) { s with sampler := { s.sampler with demand := rest } } := by
  simp [select, hphase, hparked, hd, hi]

/-! ### Claims, demand entries and abandoned samples -/

/-- Only the sampler differs. -/
def SamplerOnly (s t : State) : Prop := t = { s with sampler := t.sampler }

theorem SamplerOnly.refl (s : State) : SamplerOnly s s := rfl

theorem SamplerOnly.trans {s t u : State} (h : SamplerOnly s t) (k : SamplerOnly t u) : SamplerOnly s u := by
  unfold SamplerOnly at *
  rw [k, h]

theorem select_samplerOnly (s : State) : SamplerOnly s (select s) := (select_reselected s).only

theorem discardSample_samplerOnly (s : State) : SamplerOnly s (discardSample s) := rfl

theorem releaseClaim_samplerOnly (i : StationIx) (s : State) : SamplerOnly s (releaseClaim plain i s) := rfl

theorem removeDemand_samplerOnly (i : StationIx) (s : State) : SamplerOnly s (removeDemand i s) := rfl

theorem abandonFor_samplerOnly (i : StationIx) (s : State) : SamplerOnly s (abandonFor plain i s) := by
  unfold abandonFor
  split
  · split
    · exact (discardSample_samplerOnly s).trans (select_samplerOnly _)
    · exact .refl s
  · exact .refl s

theorem addDemand_samplerOnly (i : StationIx) (s : State) : SamplerOnly s (addDemand plain i s) := by
  unfold addDemand
  split
  · exact .refl s
  · split
    · exact .trans (t := { s with sampler := { s.sampler with demand := s.sampler.demand ++ [i] } }) rfl
        (select_samplerOnly _)
    · exact .refl s

/-- What the sampler does at a change of state touches the sampler alone (R35). -/
theorem tellSampler_samplerOnly (i : StationIx) (old new : StationState) (s : State) :
    SamplerOnly s (tellSampler plain i old new s) := by
  have gone : SamplerOnly s (abandonFor plain i (releaseClaim plain i s)) :=
    (releaseClaim_samplerOnly i s).trans (abandonFor_samplerOnly i _)
  have out : SamplerOnly s (abandonFor plain i (releaseClaim plain i (removeDemand i s))) :=
    (removeDemand_samplerOnly i s).trans ((releaseClaim_samplerOnly i _).trans (abandonFor_samplerOnly i _))
  cases new <;> simp only [tellSampler]
  · exact out
  · split
    · exact gone
    · exact .refl s
  · split
    · exact .refl s
    · exact select_samplerOnly s
  · split
    · exact .refl s
    · exact select_samplerOnly s
  · exact out
  · split
    · exact gone
    · exact .refl s

/-- Behind a release no spare line is claimed by the station (R75). -/
theorem releaseClaim_released (i : StationIx) (s : State) :
    (releaseClaim plain i s).sampler.claim17 ≠ some i ∧ (releaseClaim plain i s).sampler.claim18 ≠ some i := by
  constructor <;> · simp only [releaseClaim_plain, dropClaim]; split <;> simp_all

theorem startSampler_samplerOnly (s : State) : SamplerOnly s (startSampler plain s) := by
  unfold startSampler
  split
  · split
    · rfl
    · exact .trans (t := { s with sampler := { s.sampler with phase := .idle } }) rfl (select_samplerOnly _)
  · exact .refl s

end Sys2Proof.Laws
end

