-- ==== Sys2Proof/Laws/Table.lean ====
section
/-! SUPPORT. The station table, the drive and the classifier: everything a change that passes through them can touch. -/

namespace Sys2Proof.Laws

open Sys2Proof Sys2Proof.Machine

/-- A change that stays inside the station table, the sampler, the drive and the event unit, and keeps every configuration:
what every path from a command to a valve makes. -/
structure TableChange (s t : State) : Prop where
  only : t = { s with stations := t.stations, sampler := t.sampler, drive := t.drive, events := t.events }
  cfg : ∀ j : StationIx, t.cfg j = s.cfg j

namespace TableChange

variable {s t u : State}

theorem refl (s : State) : TableChange s s := ⟨rfl, fun _ => rfl⟩

theorem trans (h : TableChange s t) (k : TableChange t u) : TableChange s u :=
  ⟨by rw [k.only, h.only], fun j => (k.cfg j).trans (h.cfg j)⟩

theorem ofSampler (h : SamplerOnly s t) : TableChange s t := by
  unfold SamplerOnly at h
  rw [h]
  exact ⟨rfl, fun _ => rfl⟩

theorem ite {c : Prop} [Decidable c] (h : c → TableChange s t) (k : ¬ c → TableChange s u) :
    TableChange s (if c then t else u) := by
  split
  · exact h ‹_›
  · exact k ‹_›

/-- A fold of such changes is one. -/
theorem foldl {α : Type} {f : State → α → State} (h : ∀ s a, TableChange s (f s a)) (l : List α) (s : State) :
    TableChange s (l.foldl f s) := by
  induction l generalizing s with
  | nil => exact refl s
  | cons a rest ih => exact (h s a).trans (ih (f s a))

/-- So is such a change of every station in turn. -/
theorem forStations {f : StationIx → State → State} (h : ∀ i s, TableChange s (f i s)) (s : State) :
    TableChange s (forStations f s) := foldl (fun s i => h i s) allStations s

theorem bank (h : TableChange s t) : t.bank = s.bank := by rw [h.only]
theorem settings (h : TableChange s t) : t.settings = s.settings := by rw [h.only]
theorem elapsed (h : TableChange s t) : t.elapsed = s.elapsed := by rw [h.only]
theorem memory (h : TableChange s t) : t.memory = s.memory := by rw [h.only]
theorem link (h : TableChange s t) : t.link = s.link := by rw [h.only]
theorem trip (h : TableChange s t) : t.trip = s.trip := by rw [h.only]
theorem measure (h : TableChange s t) : t.measure = s.measure := by rw [h.only]
theorem balancer (h : TableChange s t) : t.balancer = s.balancer := by rw [h.only]
theorem pins (h : TableChange s t) : t.pins = s.pins := by rw [h.only]
theorem pending (h : TableChange s t) : t.pending = s.pending := by rw [h.only]
theorem powered (h : TableChange s t) : t.powered = s.powered := by rw [h.only]
theorem control (h : TableChange s t) : t.control = s.control := by rw [h.only]
theorem monitor (h : TableChange s t) : t.monitor = s.monitor := by rw [h.only]

end TableChange

variable (s : State)

/-! ### The parts every path is made of -/

theorem raise_table (k : EventKind) (n : Nat) (e : Option Edge) (v : Option Nat) : TableChange s (raise k n e v s) :=
  ⟨rfl, fun _ => rfl⟩

theorem setWork_table (i : StationIx) (w : StationWork) : TableChange s (s.setWork i w) :=
  ⟨rfl, fun j => setWork_cfg s i j w⟩

theorem withDrive_table (d : Drive) : TableChange s { s with drive := d } := ⟨rfl, fun _ => rfl⟩

theorem select_table : TableChange s (select s) := .ofSampler (select_samplerOnly s)

theorem addDemand_table (i : StationIx) : TableChange s (addDemand plain i s) := .ofSampler (addDemand_samplerOnly i s)

theorem discardSample_table : TableChange s (discardSample s) := .ofSampler rfl

/-! ### The station table -/

theorem enterState_table (i : StationIx) (new : StationState) (l : List WorkField) (f : StationWork → StationWork) :
    TableChange s (enterState plain i new l f s) :=
  (setWork_table s i _).trans ((raise_table _ _ _ _ _).trans (.ofSampler (tellSampler_samplerOnly ..)))

theorem settleReached_table (i : StationIx) : TableChange s (settleReached plain i s) :=
  (setWork_table s i _).trans (.ite (fun _ => addDemand_table ..) fun _ => .refl _)

theorem reportCompleted_table (i : StationIx) (target : Nat) : TableChange s (reportCompleted plain i target s) :=
  .ite (fun _ => (setWork_table s i _).trans (.ite (fun _ => settleReached_table ..) fun _ => .refl _)) fun _ => .refl s

theorem haltFault_table (i : StationIx) (c : FaultCause) : TableChange s (haltFault plain i c s) :=
  (enterState_table s i _ _ _).trans (withDrive_table ..)

theorem haltReport_table (i : StationIx) (c : FaultCause) : TableChange s (haltReport plain i c s) :=
  .ite (fun _ => haltFault_table ..) fun _ => .refl s

/-! ### The drive -/

theorem completeMotion_table (i : StationIx) (target : Nat) : TableChange s (completeMotion plain i target s) :=
  (withDrive_table s _).trans (reportCompleted_table ..)

theorem beginMotion_table (e : QueuedMove) : TableChange s (beginMotion plain e s) := by
  rw [beginMotion_plain]
  split
  · exact (raise_table ..).trans (haltReport_table ..)
  · exact .ite (fun _ => reportCompleted_table ..) fun _ =>
      .ite (fun _ => withDrive_table ..) fun _ => withDrive_table ..

theorem grantLoop_table (fuel : Nat) : TableChange s (grantLoop plain fuel s) := by
  induction fuel generalizing s with
  | zero => exact .refl s
  | succ fuel ih =>
    rw [grantLoop_plain]
    split
    · exact .refl s
    · exact .ite (fun _ => (withDrive_table s _).trans ((beginMotion_table ..).trans (ih _))) fun _ => .refl s

theorem grantTest_table : TableChange s (grantTest plain s) := grantLoop_table ..

/-- In IDLE nothing is granted (R127). -/
theorem grantTest_idle {s : State} (h : s.bank.mode = .idle) : grantTest plain s = s := by
  have closed : grantOpen s = false := by simp [grantOpen, h]
  unfold grantTest
  cases hq : s.drive.queue with
  | nil => rfl
  | cons e rest => simp [grantLoop, hq, closed]

theorem retarget_table (m : Motion) (target : Nat) : TableChange s (retarget plain m target s) := by
  rw [retarget_plain]
  split
  · exact .refl s
  · split
    · exact withDrive_table ..
    · split
      · exact withDrive_table ..
      · exact .ite (fun _ => completeMotion_table ..) fun _ => .ite (fun _ => withDrive_table ..) fun _ =>
          .ite (fun _ => withDrive_table ..) fun _ => withDrive_table ..
      · exact .ite (fun _ => completeMotion_table ..) fun _ => .ite (fun _ => withDrive_table ..) fun _ =>
          withDrive_table ..

theorem queueMove_table (i : StationIx) (target : Nat) : TableChange s (queueMove plain i target s) :=
  (withDrive_table s _).trans (setWork_table ..)

theorem takeMove_table (i : StationIx) (target : Nat) : TableChange s (takeMove plain i target s) := by
  unfold takeMove
  split
  · exact withDrive_table ..
  · split
    · exact retarget_table ..
    · exact .ite (fun _ => reportCompleted_table ..) fun _ => queueMove_table ..

theorem moveRequest_table (i : StationIx) (target : Nat) : TableChange s (moveRequest plain i target s) :=
  (takeMove_table s i target).trans (grantTest_table _)

theorem applyTarget_table (i : StationIx) (requested : Nat) : TableChange s (applyTarget plain i requested s) :=
  .ite (fun _ => .refl s) fun _ => (setWork_table s i _).trans (moveRequest_table ..)

theorem driveFault_table (i : StationIx) (c : FaultCause) : TableChange s (driveFault plain i c s) :=
  (enterState_table s i _ _ _).trans (.ite (fun _ => moveRequest_table ..) fun _ => applyTarget_table ..)

theorem faultReport_table (i : StationIx) (c : FaultCause) : TableChange s (faultReport plain i c s) := by
  have halt : TableChange s (grantTest plain (haltFault plain i c s)) := (haltFault_table s i c).trans (grantTest_table _)
  rw [faultReport_plain]
  refine .ite (fun _ => ?_) fun _ => .refl s
  cases c
  · exact halt
  · exact halt
  · exact halt
  · exact driveFault_table ..
  · exact driveFault_table ..
  · exact driveFault_table ..

theorem stallMotion_table (i : StationIx) : TableChange s (stallMotion plain i s) :=
  (withDrive_table s _).trans ((raise_table ..).trans ((faultReport_table ..).trans (grantTest_table _)))

theorem timeoutMotion_table (i : StationIx) : TableChange s (timeoutMotion plain i s) :=
  (withDrive_table s _).trans ((raise_table ..).trans ((faultReport_table ..).trans (grantTest_table _)))

theorem missMotion_table (m : Motion) : TableChange s (missMotion plain m s) :=
  (withDrive_table s _).trans ((raise_table ..).trans ((reportCompleted_table ..).trans (grantTest_table _)))

theorem timeoutDue_table : TableChange s (timeoutDue plain s) := .foldl (fun t i => timeoutMotion_table t i) _ s

theorem stallTest_table (m : Motion) (d : Direction) (r : Option Nat) (n : Nat) : TableChange s (stallTest plain m d r n s) :=
  .ite (fun _ => stallMotion_table ..) fun _ => withDrive_table ..

theorem completed_table (i : StationIx) (target : Nat) : TableChange s (grantTest plain (completeMotion plain i target s)) :=
  (completeMotion_table s i target).trans (grantTest_table _)

theorem seePosition_table (m : Motion) : TableChange s (seePosition plain m s) := by
  rw [seePosition_plain]
  split
  · split
    · exact stallTest_table ..
    · exact .refl s
  · split
    · exact .ite (fun _ => completed_table ..) fun _ => .ite (fun _ => withDrive_table ..) fun _ => stallTest_table ..
    · exact .ite (fun _ => completed_table ..) fun _ => withDrive_table ..
    · exact withDrive_table ..

theorem nextInchPeriod_table (m : Motion) (n : Nat) : TableChange s (nextInchPeriod plain m n s) :=
  .ite (fun _ => missMotion_table ..) fun _ => .ite (fun _ => completed_table ..) fun _ => withDrive_table ..

theorem endReversal_table (m : Motion) : TableChange s (endReversal plain m s) := by
  rw [endReversal_plain]
  split
  · exact withDrive_table ..
  · exact .ite (fun _ => completed_table ..) fun _ => .ite (fun _ => withDrive_table ..) fun _ => withDrive_table ..

/-- The run order changes nothing outside the table and the drive (R142). -/
theorem runOrder_table : TableChange s (runOrder plain s) :=
  (TableChange.foldl (fun _ _ => .ite (fun _ => queueMove_table ..) fun _ => .refl _) _ s).trans (grantTest_table _)

/-- Nor does the trip order (R143). -/
theorem tripOrder_table (changed : List StationIx) : TableChange s (tripOrder plain changed s) := by
  rw [tripOrder_plain]
  refine .trans ?_ (grantTest_table _)
  refine .trans ?_ (.foldl (fun _ _ => reportCompleted_table ..) _ _)
  refine .trans ?_ (.foldl (fun _ _ => queueMove_table ..) _ _)
  exact (withDrive_table s _).trans (.foldl (fun _ _ => retarget_table ..) _ _)

/-! ### The classifier -/

theorem quarantine_table (i : StationIx) (n : Nat) : TableChange s (quarantine plain i n s) :=
  (enterState_table s i _ _ _).trans (applyTarget_table ..)

theorem exhaust_table (i : StationIx) : TableChange s (exhaust plain i s) :=
  (raise_table s _ _ _ _).trans ((enterState_table ..).trans (applyTarget_table ..))

theorem recover_table (i : StationIx) : TableChange s (recover plain i s) :=
  (enterState_table s i _ _ _).trans (applyTarget_table ..)

theorem applyTransition_table (i : StationIx) (a : Area) : TableChange s (applyTransition plain i a s) := by
  rw [applyTransition_plain]
  split
  · exact .ite (fun _ => .ite (fun _ => quarantine_table ..) fun _ => exhaust_table ..) fun _ => .refl _
  · exact .ite (fun _ => .ite (fun _ => recover_table ..) fun _ => setWork_table ..) fun _ => setWork_table ..
  · exact .refl _

theorem storeResult_table (r : StationResult) : TableChange s (storeResult plain r s) :=
  .ite (fun _ => (setWork_table s _ _).trans (raise_table ..)) fun _ => setWork_table ..

/-- Filing a result touches nothing outside the table, the sampler, the drive and the event unit (R32). -/
theorem fileResult_table (r : StationResult) : TableChange s (fileResult plainly r s) :=
  .ite (fun _ => (storeResult_table s r).trans (applyTransition_table ..)) fun _ => .refl s

theorem selectNow_table : TableChange s (selectNow plainly s) := select_table s

theorem deliver_table (r : StationResult) : TableChange s (deliver plainly r s) :=
  .ite (fun _ => .ofSampler rfl) fun _ => (selectNow_table s).trans (fileResult_table _ r)

theorem handParkedResult_table : TableChange s (handParkedResult plainly s) := by
  unfold handParkedResult
  split
  · exact .trans (.ofSampler (t := { s with sampler := { s.sampler with parked := none } }) rfl)
      ((fileResult_table ..).trans (selectNow_table _))
  · exact .refl s

theorem invalidPause_table : TableChange s (invalidPause s) :=
  .trans (.ofSampler (t := pauseSampler s) rfl) (raise_table ..)

theorem countInvalid_table : TableChange s (countInvalid plainly s) := by
  unfold countInvalid
  refine .trans (.ofSampler (t :=
    { s with sampler := { s.sampler with faultCount := min (s.sampler.faultCount + 1) 3 } }) rfl) ?_
  exact .ite (fun _ => selectNow_table _) fun _ => invalidPause_table _

theorem roundChange_table (a : Adjustment) : TableChange s (roundChange a plain s) :=
  .ite (fun _ => applyTarget_table ..) fun _ => .refl s

end Sys2Proof.Laws
end

