-- ==== Sys2Proof/Laws/Part.lean ====
section
/-! SUPPORT. The trip unit, the measurement unit, the balancer and the bank link: everything a change that passes through
them can touch. -/

namespace Sys2Proof.Laws

open Sys2Proof Sys2Proof.Machine

/-- A change that leaves time, power, the ports, the field levels, the settings, every configuration, the protected memory and
the queue of commands alone: what the part's blocks make among themselves. -/
structure PartChange (s t : State) : Prop where
  only : t = { s with
    stations := t.stations, measure := t.measure, sampler := t.sampler, balancer := t.balancer, drive := t.drive
    trip := t.trip, link := t.link, bank := t.bank, events := t.events }
  cfg : ∀ j : StationIx, t.cfg j = s.cfg j

namespace PartChange

variable {s t u : State}

theorem refl (s : State) : PartChange s s := ⟨rfl, fun _ => rfl⟩

theorem trans (h : PartChange s t) (k : PartChange t u) : PartChange s u :=
  ⟨by rw [k.only, h.only], fun j => (k.cfg j).trans (h.cfg j)⟩

theorem ofTable (h : TableChange s t) : PartChange s t := ⟨by rw [h.only], h.cfg⟩

theorem ite {c : Prop} [Decidable c] (h : c → PartChange s t) (k : ¬ c → PartChange s u) :
    PartChange s (if c then t else u) := by
  split
  · exact h ‹_›
  · exact k ‹_›

theorem foldl {α : Type} {f : State → α → State} (h : ∀ s a, PartChange s (f s a)) (l : List α) (s : State) :
    PartChange s (l.foldl f s) := by
  induction l generalizing s with
  | nil => exact refl s
  | cons a rest ih => exact (h s a).trans (ih (f s a))

theorem forStations {f : StationIx → State → State} (h : ∀ i s, PartChange s (f i s)) (s : State) :
    PartChange s (forStations f s) := foldl (fun s i => h i s) allStations s

theorem memory (h : PartChange s t) : t.memory = s.memory := by rw [h.only]

/-- A clean memory stays so. -/
theorem clean (h : PartChange s t) (hs : s.memory.Clean) : t.memory.Clean := h.memory ▸ hs

/-- Such a change keeps what no command of the part's own blocks may touch. -/
theorem kept (h : PartChange s t) : Kept s t := by
  refine ⟨?_, ?_, ?_, ?_, ?_, ?_, h.cfg⟩ <;> rw [h.only]

theorem silent (h : PartChange s t) : Silent s t := by
  refine ⟨h.kept, ?_, ?_, ?_⟩ <;> rw [h.only]

theorem elapsed (h : PartChange s t) : t.elapsed = s.elapsed := by rw [h.only]
theorem conversionDue (h : PartChange s t) : t.conversionDue = s.conversionDue := by rw [h.only]

end PartChange

variable (s : State)

/-! ### The trip unit -/

theorem setMode_part (m : BankMode) : PartChange s (setMode m s) := ⟨rfl, fun _ => rfl⟩

/-- A change of mode moves the isolation line with it (R150). -/
theorem setMode_isolation (m : BankMode) : (setMode m s).bank.isolation = true ↔ (setMode m s).bank.mode = .running := by
  simp [setMode, raise]

theorem standDown_table (i : StationIx) : TableChange s (standDown i plain s) :=
  .ite (fun _ => (setWork_table s i _).trans ((raise_table ..).trans (.ofSampler (releaseClaim_samplerOnly i _))))
    fun _ => setWork_table ..

theorem startSampler_table : TableChange s (startSampler plain s) := .ofSampler (startSampler_samplerOnly s)

theorem standDownAll_table : TableChange s (standDownAll plainly s) := .forStations (fun i t => standDown_table t i) s

theorem tripUnit_part (o : TripOrigin) : PartChange s (tripUnit o s) := ⟨rfl, fun _ => rfl⟩

/-- A trip leaves settings, configurations, memory, ports, field levels and time alone (R170). -/
theorem trip_part (o : TripOrigin) : PartChange s (trip plainly o s) := by
  rw [trip_plainly]
  exact (tripUnit_part s o).trans (.ofTable ((standDownAll_table _).trans ((tripOrder_table ..).trans (startSampler_table _))))

/-- Behind a trip the bank is TRIPPED, released, with no timer and the latch of its origin (R170). -/
theorem trip_bank (o : TripOrigin) : (trip plainly o s).bank = { s.bank with mode := .tripped, isolation := false } ∧
    (trip plainly o s).trip = { s.trip with
      latch := latchOf s o, record := some (tripRecordOf s o), timer := none
      line := tripLineFrom s.elapsed s.settings.trip.pulseWidth, linkDrive := latchOf s o = .localTrip } := by
  rw [trip_plainly, (startSampler_table _).bank, (startSampler_table _).trip, (tripOrder_table _ _).bank,
    (tripOrder_table _ _).trip, (standDownAll_table _).bank, (standDownAll_table _).trip]
  exact ⟨rfl, rfl⟩

theorem refreshOutput_part : PartChange s (refreshOutput s) := ⟨rfl, fun _ => rfl⟩

theorem followOutput_part : PartChange s (followOutput s) := by
  unfold followOutput
  split
  · exact ⟨rfl, fun _ => rfl⟩
  · split <;> exact ⟨rfl, fun _ => rfl⟩

theorem evaluateOutput_part : PartChange s (evaluateOutput plain s) := (refreshOutput_part s).trans (followOutput_part _)

theorem tripAndRefresh_part (o : TripOrigin) : PartChange s (tripAndRefresh plainly o s) :=
  (trip_part s o).trans (refreshOutput_part _)

/-- An evaluation of the trip function touches what a trip may touch, and no more (R168, R169). -/
theorem evaluateTrip_part (need : State → List Nat) : PartChange s (evaluateTrip plainly need s) :=
  (evaluateOutput_part s).trans (.ite (fun _ => tripAndRefresh_part ..) fun _ => .refl _)

/-- Where no trip is due an evaluation changes the output and the timer alone. -/
theorem evaluateTrip_of_noTripDue {s : State} (need : State → List Nat) (h : NoTripDue s) :
    evaluateTrip plainly need s = followOutput (refreshOutput s) := by
  rw [evaluateTrip_plainly]
  refine if_neg fun hd => ?_
  simp only [tripDue, Bool.and_eq_true, decide_eq_true_eq] at hd
  obtain ⟨ht, hp⟩ := hd
  rw [(followOutput_part _).kept.2.2.2.1, (refreshOutput_part s).kept.2.2.2.1] at hp
  rcases h with h | h | h
  · simp [followOutput, refreshOutput, h] at ht
  · simp [followOutput, refreshOutput, h] at ht
  · exact h hp

/-! ### The measurement unit -/

theorem lineEvent_table (k : EventKind) (i : StationIx) (old : InputStatus) (new : InputEntry) :
    TableChange s (lineEvent k i old new s) :=
  .ite (fun _ => .refl s) fun _ => .ite (fun _ => .ite (fun _ => .refl s) fun _ => raise_table ..) fun _ =>
    .ite (fun _ => raise_table ..) fun _ => .refl s

theorem storeFlow_table (i : StationIx) (r : WindowResult) : TableChange s (storeFlow plain i r s) := by
  cases r
  · exact setWork_table ..
  · exact (setWork_table s i _).trans (faultReport_table ..)

theorem handFlow_part (i : StationIx) (r : WindowResult) : PartChange s (handFlow plain i r s) :=
  .ite (fun _ => ⟨rfl, fun _ => rfl⟩) fun _ => .ofTable (storeFlow_table ..)

theorem setWindow_part (i : StationIx) (w : Option FlowWindow) : PartChange s (setWindow i w s) :=
  ⟨rfl, fun _ => rfl⟩

theorem flowStep_part (i : StationIx) : PartChange s (flowStep i plain s) := by
  rw [flowStep_plain]
  split
  · exact .ite (fun _ => (setWindow_part ..).trans (handFlow_part ..)) fun _ => .refl s
  · exact .ite (fun _ => (setWindow_part ..).trans (handFlow_part ..)) fun _ => setWindow_part ..

theorem handParkedFlow_part (i : StationIx) : PartChange s (handParkedFlow i plain s) := by
  have emptied : PartChange s { s with measure := { s.measure with parked := s.measure.parked.set i.val none } } :=
    ⟨rfl, fun _ => rfl⟩
  unfold handParkedFlow
  split
  · exact emptied.trans (.ofTable (storeFlow_table ..))
  · exact .refl s

theorem takePositions_table (before : Vector InputEntry 35) : TableChange s (takePositions before plain s) := by
  unfold takePositions reportPositions storePositions lineEvents
  refine .trans ?_ (.forStations (fun i t => .ite (fun _ => faultReport_table ..) fun _ => .refl t) _)
  refine .trans ?_ (.forStations (fun i t => setWork_table t i _) _)
  refine .trans ?_ (.forStations (fun i t => lineEvent_table t ..) _)
  exact .forStations (fun i t => lineEvent_table t ..) _

theorem seeMotion_table (i : StationIx) : TableChange s (seeMotion i plain s) := by
  unfold seeMotion
  split
  · exact seePosition_table ..
  · exact .refl s

theorem movePositions_table : TableChange s (movePositions plainly s) := .foldl (fun t i => seeMotion_table t i) _ s

theorem stepFlows_part : PartChange s (stepFlows plainly s) := by
  unfold stepFlows
  exact .forStations (fun i t => flowStep_part t i) s

/-- One conversion touches the input table, the windows and what the table, the drive and the sampler make of them (R40). -/
theorem convert_part (codes : Vector Code 35) : PartChange s (convert plainly codes s) := by
  have read : PartChange s (readInputs codes s) := ⟨rfl, fun _ => rfl⟩
  have placed := takePositions_table (readInputs codes s) s.measure.inputs
  have moved := placed.trans (movePositions_table _)
  rw [convert_plainly]
  exact read.trans ((PartChange.ofTable moved).trans (stepFlows_part _))

/-! ### Rounds and the bank link -/

theorem leaveHold_part : PartChange s (leaveHold s) := ⟨rfl, fun _ => rfl⟩

theorem handParkedFlows_part : PartChange s (handParkedFlows plainly s) := by
  unfold handParkedFlows
  exact .forStations (fun i t => handParkedFlow_part t i) s

/-- The end of a hold hands on what was parked and ends the hold (R180). -/
theorem endHold_part : PartChange s (endHold plainly s) := by
  unfold endHold
  exact .ite (fun _ => (leaveHold_part s).trans ((handParkedFlows_part _).trans (.ofTable (handParkedResult_table _))))
    fun _ => .refl s

theorem shortfallEvent_table (r : RoundRecord) : TableChange s (shortfallEvent r s) :=
  .ite (fun _ => .ite (fun _ => .refl s) fun _ => raise_table ..) fun _ => .ite (fun _ => raise_table ..) fun _ => .refl s

theorem outcomeEvent_table (r : RoundRecord) : TableChange s (outcomeEvent r s) := by
  unfold outcomeEvent
  split
  · exact .refl s
  · split
    · exact raise_table ..
    · exact raise_table ..
    · exact .refl s

/-- The computation of a round touches the balancer and the event unit alone: it changes no station (R101). -/
theorem computeRound_part : PartChange s (computeRound plain s) := by
  unfold computeRound
  dsimp only
  refine .trans (t := outcomeEvent (roundRecord s) (shortfallEvent (roundRecord s)
    ((roundRecord s).adjustments.foldl adjustedEvent s))) ?_ ⟨rfl, fun _ => rfl⟩
  exact .ofTable ((TableChange.foldl (fun t a => raise_table t ..) _ s).trans
    ((shortfallEvent_table ..).trans (outcomeEvent_table ..)))

theorem computeRound_balancer : (computeRound plain s).balancer =
    { purityLow := purityLowAfter s (roundRecord s), o2High := o2HighAfter s (roundRecord s)
      shortfall := (roundRecord s).outcome = .shortfall, lastRound := some (roundRecord s) } := rfl

/-- What the table makes of the adjustments handed to it (R117). -/
theorem handChanges_table : TableChange s (handChanges plainly s) := by
  unfold handChanges
  split
  · exact .foldl (fun t a => roundChange_table t a) _ _
  · exact .refl s

/-- Behind the computation the adjustments of the round just recorded reach the table in their order (R117). -/
theorem roundEvent_eq : roundEvent plainly s =
    (roundRecord s).adjustments.foldl (fun t a => roundChange a plain t) (computeRound plain s) :=
  rfl

/-- A round event is computed from the state it finds and stands in the last-round record (R99, R100). -/
theorem roundEvent_part : PartChange s (roundEvent plainly s) :=
  (computeRound_part s).trans (.ofTable (handChanges_table (computeRound plain s)))

theorem roundEvent_balancer : (roundEvent plainly s).balancer =
    { purityLow := purityLowAfter s (roundRecord s), o2High := o2HighAfter s (roundRecord s)
      shortfall := (roundRecord s).outcome = .shortfall, lastRound := some (roundRecord s) } :=
  (handChanges_table (computeRound plain s)).balancer.trans (computeRound_balancer s)

theorem takeRound_part : PartChange s (takeRound plainly s) := (roundEvent_part s).trans (endHold_part _)

theorem startRoundTimer_part : PartChange s (startRoundTimer s) := ⟨rfl, fun _ => rfl⟩

theorem releaseMark_part : PartChange s (releaseMark s) := ⟨rfl, fun _ => rfl⟩

theorem beginMarkPulse_part : PartChange s (beginMarkPulse s) := ⟨rfl, fun _ => rfl⟩

theorem beginLead_part : PartChange s (beginLead s) := ⟨rfl, fun _ => rfl⟩

theorem markAtRound_part : PartChange s (markAtRound s) :=
  .ite (fun _ => .ite (fun _ => releaseMark_part s) fun _ => .ite (fun _ => beginMarkPulse_part s) fun _ => .refl s)
    fun _ => .refl s

/-- At its expiry the round timer gives a round event and is started again (R159). -/
theorem roundTimerFires_part : PartChange s (roundTimerFires plainly s) :=
  (markAtRound_part s).trans ((takeRound_part _).trans (startRoundTimer_part _))

theorem restartRoundTimer_part (role : LinkRole) : PartChange s (restartRoundTimer plainly role s) :=
  .ite (fun _ => .ite (fun _ => (releaseMark_part s).trans ((takeRound_part _).trans (startRoundTimer_part _)))
    fun _ => startRoundTimer_part s) fun _ => .refl s

theorem loseLink_part (cause : Nat) : PartChange s (loseLink plainly cause s) := by
  have lost : PartChange s { s with link := { s.link with state := .lost } } := ⟨rfl, fun _ => rfl⟩
  exact lost.trans ((endHold_part _).trans ((startRoundTimer_part _).trans (.ofTable (raise_table ..))))

/-! ### Work whose words are all good

On a clean memory the checked work of a block is the work itself (R187). -/

/-- A run of checked pieces is the run of the pieces themselves. -/
theorem foldl_checked_clean {α : Type} {need : α → State → List Nat} {work : α → Work}
    (h : ∀ s a, PartChange s (work a plain s)) (l : List α) {s : State} (hs : s.memory.Clean) :
    l.foldl (fun t a => checked (need a) (work a) t) s = l.foldl (fun t a => work a plain t) s := by
  induction l generalizing s with
  | nil => rfl
  | cons a rest ih => rw [List.foldl_cons, List.foldl_cons, checked_clean _ _ hs, ih ((h s a).clean hs)]

/-- A trip on a part whose words are all good is its steps in the order of R170. -/
theorem trip_clean (o : TripOrigin) {s : State} (h : s.memory.Clean) : trip checked o s = trip plainly o s := by
  have told : (tripUnit o s).memory.Clean := (tripUnit_part s o).clean h
  have stood : standDownAll checked (tripUnit o s) = standDownAll plainly (tripUnit o s) :=
    foldl_checked_clean (fun t i => .ofTable (standDown_table t i)) _ told
  have down := (PartChange.ofTable (standDownAll_table _)).clean told
  rw [trip, checked_clean _ _ h, checked_clean _ nothing told, nothing_eq, stood, checked_clean _ _ down,
    checked_clean _ _ ((PartChange.ofTable (tripOrder_table _ _)).clean down), trip_plainly]

theorem tripAndRefresh_clean (o : TripOrigin) {s : State} (h : s.memory.Clean) :
    tripAndRefresh checked o s = tripAndRefresh plainly o s := by rw [tripAndRefresh, trip_clean o h, tripAndRefresh]

theorem evaluateTrip_clean (need : State → List Nat) {s : State} (h : s.memory.Clean) :
    evaluateTrip checked need s = evaluateTrip plainly need s := by
  rw [evaluateTrip, checked_clean _ _ h, tripIfDue, tripAndRefresh_clean _ ((evaluateOutput_part s).clean h)]
  rfl

theorem judge_clean (before : State) {after : State} (h : after.memory.Clean) :
    judge before after = evaluateTrip plainly noWords after := evaluateTrip_clean _ h

/-- An answer on a part whose words are all good, where what its owner goes on to do leaves them so. -/
theorem settled_clean (a : Answer) {before : State} (h : before.memory.Clean) (ha : (a.onward a.state).memory.Clean) :
    a.settled before =
      { a with state :=
          if a.evaluates then evaluateTrip plainly noWords (a.onward a.state) else a.onward a.state } := by
  simp only [Answer.settled, foundDamage_clean _ h.1, Bool.or_false, judge_clean before ha]

/-! What the mode operations hand on. -/

theorem handRun_clean {s : State} (h : s.memory.Clean) : handRun checked s = handRun plainly s := by
  rw [handRun, checked_clean _ _ h, checked_clean _ _ ((PartChange.ofTable (runOrder_table s)).clean h)]
  simp only [handRun, plainly_eq]

theorem handStop_clean {s : State} (h : s.memory.Clean) : handStop checked s = handStop plainly s := by
  rw [handStop, checked_clean _ _ h]
  simp only [handStop, plainly_eq]

theorem clearRestartMarks_clean {s : State} (h : s.memory.Clean) :
    clearRestartMarks checked s = clearRestartMarks plainly s :=
  foldl_checked_clean (fun t i => .ofTable (setWork_table t i _)) _ h

theorem restartMarked_table (i : StationIx) : TableChange s (restartMarked i plain s) :=
  .ite (fun _ => (enterState_table ..).trans (applyTarget_table ..)) fun _ => .refl s

theorem handResume_clean {s : State} (h : s.memory.Clean) : handResume checked s = handResume plainly s :=
  foldl_checked_clean (fun t i => .ofTable (restartMarked_table t i)) _ h

theorem commandTrip_clean {s : State} (h : s.memory.Clean) : commandTrip checked s = tripAndRefresh plainly .command s := by
  rw [commandTrip, checked_clean _ nothing h, nothing_eq, tripAndRefresh_clean _ h]

theorem fileResult_clean (r : StationResult) {s : State} (h : s.memory.Clean) :
    fileResult checked r s = fileResult plainly r s := by
  have stored : (storeResult plain r s).memory.Clean := (PartChange.ofTable (storeResult_table s r)).clean h
  rw [fileResult_plainly, fileResult, checked_clean _ nothing h, nothing_eq,
    checked_clean _ (fun a u => storeResult a r u) h, checked_clean _ _ stored]

theorem handParkedResult_clean {s : State} (h : s.memory.Clean) :
    handParkedResult checked s = handParkedResult plainly s := by
  unfold handParkedResult
  split
  · rename_i r _
    rw [fileResult_clean r (s := { s with sampler := { s.sampler with parked := none } }) h]
    exact selectNow_clean ((PartChange.ofTable (fileResult_table _ r)).clean h)
  · rfl

theorem handParkedFlows_clean {s : State} (h : s.memory.Clean) : handParkedFlows checked s = handParkedFlows plainly s := by
  unfold handParkedFlows forStations
  exact foldl_checked_clean (fun t i => handParkedFlow_part t i) _ h

theorem roundEvent_clean {s : State} (h : s.memory.Clean) : roundEvent checked s = roundEvent plainly s := by
  rw [roundEvent, checked_clean _ _ h, roundEvent_eq]
  exact foldl_checked_clean (fun t a => .ofTable (roundChange_table t a)) _ ((computeRound_part s).clean h)

theorem endHold_clean {s : State} (h : s.memory.Clean) : endHold checked s = endHold plainly s := by
  rw [endHold, endHold, handParkedFlows_clean (s := leaveHold s) h,
    handParkedResult_clean ((handParkedFlows_part (leaveHold s)).clean h)]

theorem takeRound_clean {s : State} (h : s.memory.Clean) : takeRound checked s = takeRound plainly s := by
  rw [takeRound, roundEvent_clean h, takeRound, endHold_clean ((roundEvent_part s).clean h)]

theorem roundTimerFires_clean {s : State} (h : s.memory.Clean) :
    roundTimerFires checked s = roundTimerFires plainly s := by
  have marked : (markAtRound s).memory.Clean := (markAtRound_part s).clean h
  rw [roundTimerFires, checked_clean _ (fun _ => markAtRound) h, takeRound_clean marked,
    checked_clean _ _ ((takeRound_part _).clean marked)]
  rfl

theorem loseLink_clean (cause : Nat) {s : State} (h : s.memory.Clean) :
    loseLink checked cause s = loseLink plainly cause s := by
  rw [loseLink, endHold_clean (s := { s with link := { s.link with state := .lost } }) h,
    checked_clean _ _ ((endHold_part { s with link := { s.link with state := .lost } }).clean h)]
  rfl

theorem deliver_clean (r : StationResult) {s : State} (h : s.memory.Clean) :
    deliver checked r s = deliver plainly r s := by
  rw [deliver, selectNow_clean h, fileResult_clean r ((PartChange.ofTable (select_table s)).clean h)]
  rfl

theorem movePositions_clean {s : State} (h : s.memory.Clean) : movePositions checked s = movePositions plainly s := by
  unfold movePositions
  exact foldl_checked_clean (fun t i => .ofTable (seeMotion_table t i)) _ h

theorem stepFlows_clean {s : State} (h : s.memory.Clean) : stepFlows checked s = stepFlows plainly s := by
  unfold stepFlows forStations
  exact foldl_checked_clean (fun t i => flowStep_part t i) _ h

/-- A conversion on a part whose words are all good is its steps in the order of R40. -/
theorem convert_clean (codes : Vector Code 35) {s : State} (h : s.memory.Clean) :
    convert checked codes s = convert plainly codes s := by
  have placed : (takePositions s.measure.inputs plain (readInputs codes s)).memory.Clean :=
    (PartChange.ofTable (takePositions_table _ _)).clean (s := readInputs codes s) h
  have moved := (PartChange.ofTable (movePositions_table _)).clean placed
  rw [convert, checked_clean noWords _ (s := readInputs codes s) h, movePositions_clean placed, stepFlows_clean moved,
    checked_clean _ _ ((stepFlows_part _).clean moved)]
  rfl

end Sys2Proof.Laws
end

