-- ==== Sys2Proof/Laws/PerInstr.lean ====
section
/-! SUPPORT. A statement made of every command as syntax, one lemma for each constructor. -/

namespace Sys2Proof.Laws.Catalogue

open Sys2Proof Sys2Proof.Machine

/-- A request row's kind lies in the catalogue, below 10h for a query and not for a control request (R215); a well-formed
request of it has a body that fits a frame (R210). A command that is not a request has no row. -/
def Statement (i : Instr) : Prop :=
  ∀ row r, requestOf i = some (row, r) →
    catalogue.contains row.kind = true ∧ (row.query = true ↔ row.kind.toNat < 0x10) ∧
      (i.wellFormed = true → r.body.length ≤ maxBody)

/-- A row that is one of the catalogue's, and a frame whose form the row fixes. -/
theorem of_row {i : Instr} {row : RequestRow} {r : Request} (h : requestOf i = some (row, r))
    (hk : catalogue.contains row.kind = true ∧ (row.query = true ↔ row.kind.toNat < 0x10))
    (hf : i.wellFormed = true → r.fits = true) : Statement i := by
  intro row' r' h'
  obtain ⟨rfl, rfl⟩ : row = row' ∧ r = r' := by simpa using h.symm.trans h'
  exact ⟨hk.1, hk.2, fun hw => by simpa [Request.fits] using hf hw⟩

/-- The first of two conditions of a form. -/
theorem and_left {a b : Bool} (h : (a && b) = true) : a = true := by
  simp_all

theorem of_none {i : Instr} (h : requestOf i = none) : Statement i := by
  intro row r h'
  simp [h] at h'

theorem ident (r : Request) : Statement (.ident r) := of_row rfl (by decide) id

theorem status (r : Request) : Statement (.status r) := of_row rfl (by decide) id

theorem stationQuery (r : Request) : Statement (.stationQuery r) := of_row rfl (by decide) id

theorem bankQuery (r : Request) : Statement (.bankQuery r) := of_row rfl (by decide) id

theorem sweepQuery (r : Request) : Statement (.sweepQuery r) := of_row rfl (by decide) id

theorem tripQuery (r : Request) : Statement (.tripQuery r) := of_row rfl (by decide) id

theorem integrityQuery (r : Request) : Statement (.integrityQuery r) := of_row rfl (by decide) id

theorem peekEvents (r : Request) : Statement (.peekEvents r) := of_row rfl (by decide) id

theorem stationSet (r : Request) : Statement (.stationSet r) := of_row rfl (by decide) id

theorem start (r : Request) : Statement (.start r) := of_row rfl (by decide) and_left

theorem stationStop (r : Request) : Statement (.stationStop r) := of_row rfl (by decide) and_left

theorem isolate (r : Request) : Statement (.isolate r) := of_row rfl (by decide) and_left

theorem release (r : Request) : Statement (.release r) := of_row rfl (by decide) and_left

theorem clearFault (r : Request) : Statement (.clearFault r) := of_row rfl (by decide) and_left

theorem unassign (r : Request) : Statement (.unassign r) := of_row rfl (by decide) and_left

theorem pin (r : Request) : Statement (.pin r) := of_row rfl (by decide) and_left

theorem unpin (r : Request) : Statement (.unpin r) := of_row rfl (by decide) and_left

theorem sampleNow (r : Request) : Statement (.sampleNow r) := of_row rfl (by decide) and_left

theorem sweepSet (r : Request) : Statement (.sweepSet r) := of_row rfl (by decide) id

theorem lineSet (r : Request) : Statement (.lineSet r) := of_row rfl (by decide) id

theorem clearLine (r : Request) : Statement (.clearLine r) := of_row rfl (by decide) id

theorem clearAnalyser (r : Request) : Statement (.clearAnalyser r) := of_row rfl (by decide) id

theorem bankSet (r : Request) : Statement (.bankSet r) := of_row rfl (by decide) id

theorem tripSet (r : Request) : Statement (.tripSet r) := of_row rfl (by decide) id

theorem run (r : Request) : Statement (.run r) := of_row rfl (by decide) and_left

theorem modeStop (r : Request) : Statement (.modeStop r) := of_row rfl (by decide) and_left

theorem resume (r : Request) : Statement (.resume r) := of_row rfl (by decide) and_left

theorem tripNow (r : Request) : Statement (.tripNow r) := of_row rfl (by decide) and_left

theorem takeEvents (r : Request) : Statement (.takeEvents r) := of_row rfl (by decide) id

theorem noticeSet (r : Request) : Statement (.noticeSet r) := of_row rfl (by decide) id

theorem clearNotice (r : Request) : Statement (.clearNotice r) := of_row rfl (by decide) id

theorem castSet (r : Request) : Statement (.castSet r) := of_row rfl (by decide) id

theorem integrityClear (r : Request) : Statement (.integrityClear r) := of_row rfl (by decide) id

theorem restartCold (r : Request) : Statement (.restartCold r) := of_row rfl (by decide) and_left

theorem restartWarm (r : Request) : Statement (.restartWarm r) := of_row rfl (by decide) and_left

theorem unknownKind (kind : Byte) (r : Request) : Statement (.unknownKind kind r) := of_none rfl

theorem coldRestart : Statement (.coldRestart) := of_none rfl

theorem warmRestart : Statement (.warmRestart) := of_none rfl

theorem frameSilenceTimeout (p : Port) (bytes : List Byte) : Statement (.frameSilenceTimeout p bytes) := of_none rfl

theorem frameCheckFail (p : Port) (bytes : List Byte) : Statement (.frameCheckFail p bytes) := of_none rfl

theorem reply (p : Port) : Statement (.reply p) := of_none rfl

theorem replySent (p : Port) : Statement (.replySent p) := of_none rfl

theorem notice : Statement (.notice) := of_none rfl

theorem eventCopy : Statement (.eventCopy) := of_none rfl

theorem conversion (codes : Vector Code 35) : Statement (.conversion codes) := of_none rfl

theorem changeoverEnd : Statement (.changeoverEnd) := of_none rfl

theorem purgeEnd (flow fault : Bool) : Statement (.purgeEnd flow fault) := of_none rfl

theorem reading (fault : Bool) : Statement (.reading fault) := of_none rfl

theorem settleExpiry (station : StationIx) : Statement (.settleExpiry station) := of_none rfl

theorem roundTimerExpiry : Statement (.roundTimerExpiry) := of_none rfl

theorem markLead : Statement (.markLead) := of_none rfl

theorem markPulseEnd : Statement (.markPulseEnd) := of_none rfl

theorem markRise : Statement (.markRise) := of_none rfl

theorem markFall : Statement (.markFall) := of_none rfl

theorem linkLost : Statement (.linkLost) := of_none rfl

theorem startGapEnd : Statement (.startGapEnd) := of_none rfl

theorem inchPeriod (station : StationIx) : Statement (.inchPeriod station) := of_none rfl

theorem inchPulseEnd (station : StationIx) : Statement (.inchPulseEnd station) := of_none rfl

theorem reversalPauseEnd (station : StationIx) : Statement (.reversalPauseEnd station) := of_none rfl

theorem timeout (station : StationIx) : Statement (.timeout station) := of_none rfl

theorem persistenceExpiry : Statement (.persistenceExpiry) := of_none rfl

theorem pumpRunContact (open_ : Bool) : Statement (.pumpRunContact open_) := of_none rfl

theorem arrestorContact (closed : Bool) : Statement (.arrestorContact closed) := of_none rfl

theorem tripLineSensed (others : Bool) : Statement (.tripLineSensed others) := of_none rfl

theorem tripPulseEnd : Statement (.tripPulseEnd) := of_none rfl

theorem scrub : Statement (.scrub) := of_none rfl

theorem writeBack (word : WordIx) : Statement (.writeBack word) := of_none rfl

theorem blinkDropEnd : Statement (.blinkDropEnd) := of_none rfl

theorem frameLengthDiscard (p : Port) (address kind length : Byte) : Statement (.frameLengthDiscard p address kind length) := of_none rfl

theorem frameIgnored (p : Port) (address kind : Byte) (body : List Byte) : Statement (.frameIgnored p address kind body) := of_none rfl

theorem powerLoss : Statement (.powerLoss) := of_none rfl

end Sys2Proof.Laws.Catalogue
end

