-- ==== Sys2Proof/Laws/Requests.lean ====
section
/-! SUPPORT. Requests: what taking one comes to, for every row of the catalogue at once. -/

namespace Sys2Proof.Laws

open Sys2Proof Sys2Proof.Machine

variable {row : RequestRow} {r : Request} {s : State}

/-! ### Frames and commands -/

theorem perform_powered (f : State → State) (h : s.powered = true) : perform f s = .next (f s) := by
  rw [perform, if_pos h]

theorem perform_unpowered (f : State → State) (h : s.powered = false) : perform f s = .next s := by
  simp [perform, h]

theorem received_undisturbed (p : Port) (h : Undisturbed s) : Undisturbed (received p s) := by
  cases p <;> exact h

@[simp] theorem received_held (p : Port) (s : State) : ((received p s).port p).held = (s.port p).held := by
  cases p <;> rfl

@[simp] theorem received_work (p : Port) (s : State) (i : StationIx) : (received p s).work i = s.work i := by
  cases p <;> rfl

@[simp] theorem received_address (p : Port) (s : State) : (received p s).address = s.address := by
  cases p <;> rfl

/-- A port that takes a whole frame and then holds a request with its reply. -/
theorem holdAnswer_received (p : Port) (kind : Byte) (s : State) (c : Status) (contents : List Byte)
    (k : Option RestartKind) (f : State → State) (e : Bool) :
    holdAnswer p kind ⟨received p s, c, contents, k, f, e⟩ = replied p kind (c.code :: contents) k s := by
  cases p <;> rfl

/-! ### How a frame is taken (R212) -/

theorem taking_broadcast (h : r.address = broadcast) : taking r s = .broadcast := by
  simp [taking, h]

theorem taking_held (ha : r.address ≠ broadcast) (ho : ownAddress s r.address = true)
    (hh : (s.port r.port).held = none) : taking r s = .held := by
  simp [taking, ha, ho, hh]

theorem taking_none (ha : r.address ≠ broadcast)
    (h : ownAddress s r.address = false ∨ (s.port r.port).held.isSome = true) : taking r s = .none := by
  rcases h with h | h
  · simp [taking, ha, h]
  · cases hp : (s.port r.port).held <;> simp_all [taking]

/-- A request that becomes the held request is answered as the checks and its owner say (R212, R213). -/
theorem takeRequest_taken (row : RequestRow) (h : Taken r s) :
    takeRequest row r s = holdAnswer r.port row.kind (answerTo row r (received r.port s)) := by
  have : taking r (received r.port s) = .held :=
    taking_held h.2.1 (by simpa [ownAddress] using h.2.2.1) (by simpa using h.2.2.2)
  simp only [takeRequest, this]

/-- On a part with nothing to find, the owner acts on the state as it stands; what follows a query is nothing. -/
theorem answerTo_owner (h : Undisturbed s) (hp : row.query = true ∨ r.port = .control)
    (hl : row.lengthOk r.body.length = true) :
    answerTo row r (received r.port s) =
      if row.query then row.act plain r.port r.body (received r.port s)
      else (row.act plain r.port r.body (received r.port s)).settled (received r.port s) := by
  have : ¬ ((decide (r.port = .monitor) && !row.query) = true) := by
    rcases hp with hp | hp <;> simp [hp]
  have clean : (received r.port s).memory.Clean := (received_undisturbed r.port h).2
  rw [answerTo, if_neg this, if_neg (by simp [hl])]
  simp only [ownerAnswers, check_clean _ clean.1, judgeFound_clean _ clean.1, answer_clean _ _ _ clean]

/-- The entry of every request that reaches its owner: what the owner answers is held, and the command ends. -/
theorem performRequest_owner (h : Taken r s) (hp : row.query = true ∨ r.port = .control)
    (hl : row.lengthOk r.body.length = true) :
    performRequest row r s =
      .next (holdAnswer r.port row.kind
        (if row.query then row.act plain r.port r.body (received r.port s)
         else (row.act plain r.port r.body (received r.port s)).settled (received r.port s))) := by
  rw [performRequest, perform_powered _ h.1.1, takeRequest_taken row h, answerTo_owner h.1 hp hl]

/-- An owner that answers and changes nothing. -/
theorem performRequest_unchanged (h : Taken r s) (hp : row.query = true ∨ r.port = .control)
    (hl : row.lengthOk r.body.length = true) {c : Status} {contents : List Byte} {k : Option RestartKind}
    (ha : row.act plain r.port r.body (received r.port s) = ⟨received r.port s, c, contents, k, id, false⟩) :
    performRequest row r s = .next (replied r.port row.kind (c.code :: contents) k s) := by
  have clean : (received r.port s).memory.Clean := (received_undisturbed r.port h.1).2
  have settled : (⟨received r.port s, c, contents, k, id, false⟩ : Answer).settled (received r.port s) =
      ⟨received r.port s, c, contents, k, id, false⟩ := settled_clean _ clean clean
  rw [performRequest_owner h hp hl, ha, settled, ite_self, holdAnswer_received]

/-- Every request command is its row's request. -/
theorem exec_of_request {c : Instr} (h : requestOf c = some (row, r)) (s : State) :
    exec c s = performRequest row r s := by
  cases c <;> simp only [requestOf, Option.some.injEq, Prod.mk.injEq, reduceCtorEq] at h <;>
    obtain ⟨rfl, rfl⟩ := h <;> rfl

/-- A request that is not taken, and one whose broadcast has no effect, leave only the receiver in HUNT. -/
theorem performRequest_untaken (row : RequestRow) (hpow : s.powered = true)
    (h : taking r (received r.port s) = .none ∨
      taking r (received r.port s) = .broadcast ∧ (row.query = true ∨ r.port = .monitor)) :
    performRequest row r s = .next (received r.port s) := by
  have same : takeRequest row r s = received r.port s := by
    rcases h with h | ⟨h, hq⟩
    · simp only [takeRequest, h]
    · by_cases hquery : row.query = true
      · simp only [takeRequest, h, if_pos hquery]
      · have hm : r.port = .monitor := hq.resolve_left hquery
        have refused (t : State) : answerTo row r t = refuse .readOnly t := by simp [answerTo, hm, hquery]
        simp only [takeRequest, h, if_neg hquery, refused, refuse, restartAs]
  rw [performRequest, perform_powered _ hpow, same]

end Sys2Proof.Laws
end

