-- ==== Sys2Proof/Laws/Sweep.lean ====
section
/-! SUPPORT. The stored sweep entries: the list they hold, and what a change of one word leaves. -/

namespace Sys2Proof.Laws

open Sys2Proof Sys2Proof.Machine

theorem stationsUpToEnd_length : ∀ l : List (Option StationIx), (stationsUpToEnd l).length ≤ l.length
  | [] => Nat.le_refl 0
  | none :: _ => Nat.zero_le _
  | some _ :: rest => Nat.succ_le_succ (stationsUpToEnd_length rest)

/-- The sweep list holds at most 32 stations (R59). -/
theorem sweepList_length (k : Sampler) : k.sweepList.length ≤ Config.sweepCapacity := by
  simpa [Sampler.sweepList, Config.sweepCapacity] using stationsUpToEnd_length k.sweepEntries.toList

/-- Stations in front of zeros are the list. -/
theorem stationsUpToEnd_zeros (n : Nat) :
    ∀ l : List StationIx, stationsUpToEnd (l.map some ++ List.replicate n none) = l
  | [] => by cases n <;> rfl
  | i :: rest => by simp [stationsUpToEnd, stationsUpToEnd_zeros n rest]

@[simp] theorem entriesFrom_get (f : Nat → Option StationIx) (k : Nat) (h : k < 32) : (entriesFrom f)[k] = f k := by
  simp [entriesFrom]

theorem entriesOf_toList {l : List StationIx} (h : l.length ≤ Config.sweepCapacity) :
    (entriesOf l).toList = l.map some ++ List.replicate (32 - l.length) none := by
  have h' : l.length ≤ 32 := h
  apply List.ext_getElem
  · simp; omega
  · intro k hk _
    have hk' : k < 32 := by simpa using hk
    simp only [entriesOf, Vector.getElem_toList, entriesFrom_get _ _ hk', List.getElem_append, List.length_map]
    split <;> simp_all

/-- A list that has been stored is the list that is read (R59). -/
theorem sweepList_entriesOf {k : Sampler} {l : List StationIx} (h : l.length ≤ Config.sweepCapacity)
    (hk : k.sweepEntries = entriesOf l) : k.sweepList = l := by
  rw [Sampler.sweepList, hk, entriesOf_toList h, stationsUpToEnd_zeros]

/-- A change of one word leaves the entries of every other (R59). -/
theorem copySweepWord_other {w k : Nat} (src dst : SweepEntries) (hk : k < 32) (h : 448 + k / 4 ≠ w) :
    (copySweepWord w src dst)[k] = dst[k] := by
  simp [copySweepWord, hk, h]

theorem copySweepWord_word {w k : Nat} (src dst : SweepEntries) (hk : k < 32) (h : 448 + k / 4 = w) :
    (copySweepWord w src dst)[k] = src[k] := by
  simp [copySweepWord, hk, h]

/-- A read of a sweep-list word with three or more wrong bits leaves the entries of every other word (R59, R187). -/
theorem misread_sweep_other {w k : Nat} (m : WordBits) (s : State) (hw : 448 ≤ w ∧ w ≤ 455) (hk : k < 32)
    (h : 448 + k / 4 ≠ w) : (misread w m s).sampler.sweepEntries[k] = s.sampler.sweepEntries[k] := by
  have record : stationOfWord w = none := dif_neg (by omega)
  simp only [misread, record, if_neg (show ¬ w ≤ 409 by omega), if_pos hw]
  exact copySweepWord_other _ _ hk h

end Sys2Proof.Laws
end

