-- ==== Sys2Proof/Tests/Slice0.lean ====
section
/-! SUPPORT. Tests: ill-formed commands refused by WellFormed, the manual's worked examples, one step of each command, and a
witness for the hypotheses of each obligation. -/

set_option Elab.async false

namespace Sys2Proof.Tests

open Sys2Proof Sys2Proof.Machine

/-! ### Small states -/

/-- A request on the control port to the part's own address. -/
def ask (body : List Byte) : Request := ⟨.control, 1, body⟩

/-- A request on the monitor port to the part's own address. -/
def watch (body : List Byte) : Request := ⟨.monitor, 1, body⟩

/-- A broadcast on the control port. -/
def shout (body : List Byte) : Request := ⟨.control, 31, body⟩

/-- The command ends in a next state with a property. -/
def ends (c : Instr) (s : State) (p : State → Bool) : Bool :=
  match exec c s with
  | .next t => p t
  | .fault _ => false
  | .refused _ => false

/-- The control port holds a reply of one status. -/
def tells (c : Status) (t : State) : Bool := t.control.held.map HeldRequest.reply = some [c.code]

/-- An assigned station with K = 4200. -/
def put (i : StationIx) (st : StationState) (f : StationWork → StationWork) (s : State) : State :=
  s.setStation i
    { cfg := { StationConfig.default with k := 4200 }, work := f { StationWork.cold with state := st } }

/-- A quality result of a station's own line. -/
def result (c o filed : Nat) (a : Area) : QualityResult := ⟨c, o, 2, false, filed, filed, a, 1⟩

/-- A valid flow record. -/
def flowing (q : Nat) : FlowRecord := ⟨q, 100, false, false, 0, true⟩

/-- A bank in IDLE with a station in each state: 1 STANDBY, 2 PRODUCING, 3 QUARANTINED, 4 ISOLATED, 5 FAULTED with its
position present, 6 damaged, the rest UNUSED. -/
def bank : State :=
  put 0 .standby (fun w => { w with position := some 0 }) <|
  put 1 .producing (fun w => { w with target := 500, position := some 500, fresh := true }) <|
  put 2 .quarantined (fun w => { w with target := 50, position := some 50, recoveryRun := 1 }) <|
  put 3 .isolated (fun w => { w with position := some 0 }) <|
  put 4 (.faulted .positionLine) (fun w => { w with position := some 3 }) <|
  put 5 (.faulted .record) (fun w => { w with damaged := true }) State.reset

def inMode (m : BankMode) (p : SamplerPhase) (s : State) : State :=
  { s with bank := ⟨m, m = .running, some 120⟩, sampler := { s.sampler with phase := p } }

/-- The same bank RUNNING, with a free sampler. -/
def running : State := inMode .running .idle bank

/-- The same bank TRIPPED by command, its stations as they were. -/
def tripped : State :=
  let s := inMode .tripped .idle bank
  { s with trip := { s.trip with latch := .localTrip, line := .held, linkDrive := true } }

/-- The RUNNING bank with a sample of station 2 in flight, its purge over and one reading of two taken at 2 s. -/
def sampling (phase : SamplerPhase) : State :=
  { running with
    elapsed := 2000
    measure := { running.measure with inputs := running.measure.inputs.map fun _ => ⟨2457, .good, 2⟩ }
    sampler := { running.sampler with
      phase := phase
      inFlight := some ⟨.sweep 1, 2, 30, 2, some 0, 1, 400, 30, false, 2000⟩ } }

/-- Nothing stands in the way of a request. -/
def Quiet (s : State) : Prop := Undisturbed s ∧ s.address = 1 ∧ s.control.held = none ∧ s.monitor.held = none

theorem quiet_bank : Quiet bank := by unfold Quiet Undisturbed; decide +kernel
theorem quiet_running : Quiet running := by unfold Quiet Undisturbed; decide +kernel
theorem quiet_tripped : Quiet tripped := by unfold Quiet Undisturbed; decide +kernel

theorem taken_ask {s : State} (h : Quiet s) (body : List Byte) : TakenControl (ask body) s :=
  ⟨⟨h.1, (by decide : (1 : Byte) ≠ broadcast), by simp [ownAddress, h.2.1, ask], h.2.2.1⟩, rfl⟩

theorem taken_watch {s : State} (h : Quiet s) (body : List Byte) : Taken (watch body) s :=
  ⟨h.1, (by decide : (1 : Byte) ≠ broadcast), by simp [ownAddress, h.2.1, watch], h.2.2.2⟩

/-! ### WellFormed refuses what cannot come about -/

theorem test_long_body_refused : (Instr.bankSet (ask (List.replicate 121 0))).wellFormed = false := by decide +kernel
theorem test_full_body_allowed : (Instr.bankSet (ask (List.replicate 120 0))).wellFormed = true := by decide +kernel
theorem test_other_command_refused : (Instr.start (ask [1, 2])).wellFormed = false := by decide +kernel
theorem test_own_command_allowed : (Instr.start (ask [1, 1])).wellFormed = true := by decide +kernel
theorem test_other_mode_refused : (Instr.run (ask [4])).wellFormed = false := by decide +kernel
theorem test_other_restart_refused : (Instr.restartCold (ask [2])).wellFormed = false := by decide +kernel
theorem test_known_kind_refused : (Instr.unknownKind 0x1E (ask [])).wellFormed = false := by decide +kernel
theorem test_reply_kind_refused : (Instr.unknownKind 0x80 (ask [])).wellFormed = false := by decide +kernel
theorem test_silence_outside_frame_refused : (Instr.frameSilenceTimeout .control [0x01]).wellFormed = false := by
  decide +kernel
theorem test_good_check_refused :
    (Instr.frameCheckFail .control (frameBytes 1 0x01 [])).wellFormed = false := by decide +kernel
theorem test_bad_check_allowed :
    (Instr.frameCheckFail .control [0xC5, 1, 1, 0, 0, 0]).wellFormed = true := by decide +kernel
theorem test_short_length_refused : (Instr.frameLengthDiscard .control 1 1 120).wellFormed = false := by decide +kernel
theorem test_long_ignored_refused :
    (Instr.frameIgnored .control 2 1 (List.replicate 121 0)).wellFormed = false := by decide +kernel

/-! ### The manual's figures -/

/-- R211: the check of the nine characters 1 to 9. -/
theorem test_check_of_nine_digits :
    frameCheck [0x31, 0x32, 0x33, 0x34, 0x35, 0x36, 0x37, 0x38, 0x39] = 0x29B1 := by decide +kernel

/-- Chapter 3, worked sequence: 413 and 31 over four readings, 302 and 91 over two. -/
theorem test_rounded_averages :
    average 1650 4 = 413 ∧ average 123 4 = 31 ∧ average 603 2 = 302 ∧ average 181 2 = 91 := by decide +kernel

/-- Section 2.4, worked cases: 507 and 459, the broken loop's 537, and the clamp. -/
theorem test_worked_flows :
    windowRecord 4200 400 ⟨4800, 4, 4, false⟩ 7 = .valid 507 1200 false false 7 ∧
      windowRecord 4200 0 ⟨4800, 4, 4, false⟩ 7 = .valid 459 1200 false false 7 ∧
      windowRecord 3000 500 ⟨10001, 4, 4, true⟩ 506 = .valid 537 2500 true false 506 ∧
      windowRecord 52000 250 ⟨15970, 4, 4, true⟩ 7 = .valid 9999 3992 true true 7 := by decide +kernel

/-- Section 4.2, examples at lower 250 and upper 450. -/
theorem test_areas :
    [0, 249, 250, 449, 450, 1000].map (areaOf 250 450) = [.poor, .poor, .fair, .fair, .good, .good] := by
  decide +kernel

/-- Section 4.4: c = 650 in area II is reported as 2698. -/
theorem test_quality_value : 650 + 1024 * Area.fair.number = 2698 := by decide +kernel

/-- A producing station of a worked round. -/
def producer (i : StationIx) (q c o target vMin vMax filed : Nat) (a : Area) (s : State) : State :=
  s.setStation i
    { cfg := { StationConfig.default with k := 4200, vMin := vMin, vMax := vMax }
      work := { StationWork.cold with
        state := .producing, target := target, position := some target, fresh := true
        quality := some (result c o filed a), flow := flowing q } }

/-- A RUNNING bank with no station. -/
def empty : State := inMode .running .idle State.reset

/-- Chapter 5, worked round: a purity deficit. -/
def deficitBank : State :=
  producer 0 600 400 20 600 50 1000 0 .good <| producer 1 400 180 150 500 50 1000 0 .poor <|
  producer 2 500 300 60 400 50 1000 0 .fair <| producer 3 300 240 110 700 50 1000 0 .poor empty

theorem test_deficit_round : roundRecord deficitBank =
    { time := 0, kind := .round, outcome := .deficit, participants := 4, known := 4, knownFlow := 1800
      unknownFlow := 0, mixture := some (296, 75), purityBreached := true, oxygenBreached := false
      adjustments := [⟨1, 500, 200⟩, ⟨3, 700, 455⟩], predicted := some (320, 60) } := by decide +kernel

/-- Chapter 5, worked round: oxygen and purity together, ending short. -/
def shortBank : State :=
  producer 2 500 260 110 400 100 1000 0 .fair <| producer 6 400 340 70 600 100 1000 0 .fair <|
  producer 9 600 300 85 300 250 1000 0 .fair empty

theorem test_short_round : roundRecord shortBank =
    { time := 0, kind := .round, outcome := .shortfall, participants := 3, known := 3, knownFlow := 1500
      unknownFlow := 0, mixture := some (297, 89), purityBreached := true, oxygenBreached := true
      adjustments := [⟨2, 400, 100⟩, ⟨9, 300, 250⟩], predicted := some (310, 82) } := by decide +kernel

/-- Chapter 5, worked round: a surplus with an unknown station. -/
def surplusBank : State :=
  producer 0 300 500 100 60 50 1000 9700 .good <| producer 5 700 450 56 500 100 700 9500 .good <|
  producer 13 40 380 40 400 100 800 8000 .good <|
  put 11 .quarantined (fun w => { w with
    target := 30, position := some 30, quality := some (result 120 180 9900 .poor), flow := flowing 0 })
    { empty with elapsed := 10000000 }

theorem test_surplus_round : roundRecord surplusBank =
    { time := 10000, kind := .round, outcome := .surplus, participants := 4, known := 3, knownFlow := 1000
      unknownFlow := 40, mixture := some (465, 69), purityBreached := false, oxygenBreached := false
      adjustments := [⟨5, 500, 550⟩], predicted := none } := by decide +kernel

/-- Chapter 10, worked sequence: a trip into a nearly full queue. -/
def nearlyFull : State :=
  let s := producer 4 0 0 0 500 100 1000 0 .good <| producer 8 0 0 0 500 100 1000 0 .good empty
  { s with
    settings := { s.settings with
      notice := { mode := .frames, mask := ⟨false, false, true, false⟩, classCount := 2, noRetro := false, blink := false }
      cast := { mask := ⟨true, false, false, true⟩, base := 5, count := 4, bankEvents := true, monitorBase := 101 } }
    events := { s.events with
      queue := List.replicate 22 ⟨.state, 1, none, 0, some 1⟩, flags := ⟨true, false, false, false⟩ } }

theorem test_trip_into_nearly_full_queue :
    ends (.tripNow (ask [4])) nearlyFull (fun t =>
      t.events.queue.length = 24 && t.events.overflow = 2 && t.events.flags = ⟨true, false, false, true⟩ &&
        t.events.notices = [⟨1, ⟨false, false, false, true⟩⟩] &&
        t.events.backlog.map (fun k => (k.record.kind, k.record.station, k.queued)) =
          [(.mode, 0, true), (.trip, 0, true), (.state, 101, false)] &&
        (t.events.queue.drop 22).map EventRecord.value = [some 18, some 1]) = true := by decide +kernel

/-- Chapter 10, worked sequence: the attention line with blink. -/
theorem test_blink_drop :
    ends (.clearNotice (ask [4]))
      { bank with
        settings := { bank.settings with notice := { NoticeSettings.default with mode := .line, blink := true } }
        events := { bank.events with flags := ⟨false, false, true, true⟩ } }
      (fun t => t.events.flags = ⟨false, false, false, true⟩ && t.events.blinkDrop = some 50 && !attentionActive t) =
      true := by decide +kernel

/-- R200: an empty mask changes nothing, and so makes no read of word 408. -/
theorem test_clearNotice_empty_mask :
    let s := { bank with memory := { bank.memory with wrongBits := [(408, 3)] } }
    ends (.clearNotice (ask [0])) s (fun t => t = replied .control 0x1B [0] none s) = true := by decide +kernel

/-- Chapter 6, worked sequence: a trip with two motions running, at bank clock 700. -/
def twoMotions : State :=
  let at_ (i : StationIx) (st : StationState) (p target : Nat) := put i st fun w =>
    { w with position := some p, target := target }
  let s := at_ 2 .producing 520 600 <| at_ 7 .producing 360 350 <| at_ 10 .producing 500 700 <|
    at_ 5 .producing 420 200 <| at_ 0 .producing 450 450 <| at_ 4 .producing 300 300 <|
    at_ 6 .quarantined 40 40 <| at_ 12 .standby 3 0 <| at_ 14 (.faulted .valveStall) 380 0 empty
  { s with
    elapsed := 700000
    drive :=
      { queue := [⟨10, 700⟩, ⟨5, 200⟩]
        motions := [⟨2, 600, 690000, 520, .running .opening (some 500) 698000⟩,
          ⟨7, 350, 680000, 360, .inching 1 699000 701000 none⟩]
        lastMotorStart := some 690000 } }

theorem test_trip_order :
    ends (.tripNow (ask [4])) twoMotions (fun t =>
      t.drive.queue = [⟨10, 0⟩, ⟨0, 0⟩, ⟨5, 0⟩, ⟨4, 0⟩, ⟨6, 0⟩] &&
        t.drive.motions = [⟨2, 0, 690000, 520, .reversing 702000⟩,
          ⟨7, 0, 680000, 360, .running .closing (some 360) 700000⟩]) = true := by decide +kernel

/-- Chapter 6, worked sequence: at 508 a STATION SET retargets station 2 and a PIN station 4. -/
def twoRunning : State :=
  let s := put 1 .producing (fun w => { w with target := 200, position := some 340 }) <|
    put 3 .producing (fun w => { w with target := 455, position := some 600 }) empty
  let s := s.setCfg 3 { s.cfg 3 with manualOpening := 650 }
  { s with
    elapsed := 508000
    drive :=
      { queue := [⟨8, 250⟩]
        motions := [⟨1, 200, 500000, 340, .running .closing (some 360) 507000⟩,
          ⟨3, 455, 503000, 600, .running .closing (some 620) 507000⟩]
        lastMotorStart := some 503000 } }

theorem test_retarget_within_band :
    ends (.stationSet (ask [2, 2, 0x01, 0x2C])) twoRunning (fun t =>
      (t.work 1).target = 300 && motionOf t 1 =
        some ⟨1, 300, 500000, 340, .inching 1 508000 510000 (some (.closing, 508500))⟩) = true := by decide +kernel

theorem test_retarget_behind :
    ends (.pin (ask [4, 7])) twoRunning (fun t =>
      (t.work 3).target = 650 && motionOf t 3 = some ⟨3, 650, 503000, 600, .reversing 510000⟩) = true := by
  decide +kernel

/-- Chapter 8, worked sequence: the trip at 2022 with two terms of three. -/
def twoOfThree : State :=
  { empty with
    elapsed := 2015000
    pins := { empty.pins with pumpOpen := true }
    measure := { empty.measure with inputs := empty.measure.inputs.set 32 ⟨1188, .good, 2012⟩ }
    settings := { empty.settings with trip :=
      { termA := ⟨.suctionLow, false⟩, termB := ⟨.pumpStopped, false⟩, termC := ⟨.arrestorHot, false⟩
        function := .twoOfThree, persistence := 4, pulseWidth := .s5 } }
    trip := { empty.trip with output := true, timer := some 2012000 } }

theorem test_persistence_trip :
    ends .persistenceExpiry twoOfThree (fun t =>
      t.bank.mode = .tripped && t.trip.latch = .localTrip && t.trip.line = .pulse 2027000 && t.trip.linkDrive &&
        t.trip.record.map TripRecord.time = some 2022 &&
        t.events.queue.map (fun e => (e.kind, e.value)) = [(.mode, some 18), (.trip, some 6)]) = true := by
  decide +kernel

/-- Chapter 7, worked sequence: RESUME refused with the condition present, then accepted with MODE value 33. -/
theorem test_resume_refused :
    ends (.resume (ask [3])) { tripped with trip := { tripped.trip with output := true } }
      (fun t => tells .conditionPresent t && t.bank.mode = .tripped) = true := by decide +kernel

theorem test_resume :
    ends (.resume (ask [3])) tripped (fun t =>
      tells .ok t && t.bank.mode = .running && t.bank.isolation && t.events.queue.map EventRecord.value = [some 33]) =
      true := by decide +kernel

/-- Chapter 9, worked sequence: word 398 corrected by the scrub, then by a partial write that drops the write-back. -/
def oneWrongBit : State :=
  { bank with memory := { bank.memory with wrongBits := [(398, 1)], scrubPointer := 398, corrections := 12 } }

theorem test_scrub_corrects :
    ends .scrub oneWrongBit (fun t =>
      t.memory.corrections = 13 && t.memory.writeBacks = [398] && t.memory.scrubPointer = 399) = true := by
  decide +kernel

theorem test_partial_write_corrects :
    ends (.bankSet (ask [22, 0, 3]))
      { oneWrongBit with memory := { oneWrongBit.memory with writeBacks := [398], corrections := 13 } } (fun t =>
      t.memory.corrections = 14 && t.memory.writeBacks = [] && t.memory.wrongBits = [] &&
        t.settings.bank.slotCount = 3 && t.settings.bank.startGap = 6) = true := by decide +kernel

/-- Chapter 9, worked sequence: a round reads word 385 and finds it damaged; H returns to 40. -/
theorem test_round_finds_damage :
    ends .roundTimerExpiry
      { bank with
        settings := { bank.settings with bank := { bank.settings.bank with purityHysteresis := 60 } }
        memory := { bank.memory with wrongBits := [(385, 3)], damageList := [130] } } (fun t =>
      t.settings.bank.purityHysteresis = 40 && t.memory.damageList = [130, 385] && t.memory.damagedSetting &&
        (t.events.queue.head?.map fun e => (e.kind, e.station, e.value)) = some (.recordDamaged, 0, some 385)) =
      true := by decide +kernel

/-- Chapter 3, worked sequence: the third invalid reading. -/
theorem test_third_invalid_reading :
    ends (.purgeEnd true true)
      { sampling .purging with sampler := { (sampling .purging).sampler with faultCount := 2 } } (fun t =>
      t.sampler.phase = .paused && t.sampler.faultCount = 3 && t.sampler.analyserFault &&
        t.sampler.inFlight = none && t.events.queue.map EventRecord.edge = [some .set]) = true := by decide +kernel

/-- Chapter 11, worked sequence: the reply to a STATION COMMAND goes out under kind 91h. -/
theorem test_reply_kind :
    ends (.reply .control)
      { bank with control := { bank.control with held := some ⟨0x11, [0x00], false, none⟩ } }
      (fun t => t.control.transmitter.map (fun f => (f.kind, f.body)) = some (0x91, [0x00])) = true := by decide +kernel

/-- Chapter 11, worked sequence: a broadcast STOP takes effect with no reply. -/
theorem test_broadcast_stop :
    ends (.modeStop (shout [2])) running (fun t =>
      t.bank.mode = .idle && t.control.held = none && t.sampler.phase = .stopped) = true := by decide +kernel

/-- R157: the MODE event comes in front of what the drive's order finds, here damage of the working part of station 3. -/
theorem test_stop_mode_first :
    ends (.modeStop (ask [2])) { twoMotions with memory := { twoMotions.memory with wrongBits := [(56, 3)] } } (fun t =>
      t.events.queue.map (fun e => (e.kind, e.station, e.value)) =
        [(.mode, 0, some 16), (.recordDamaged, 3, some 56), (.state, 3, some 101)]) = true := by decide +kernel

/-! ### One step of each other command -/

/-- The reply body the monitor port holds. -/
def shown (t : State) : List Byte := (t.monitor.held.map HeldRequest.reply).getD []

theorem test_ident : ends (.ident (watch [])) bank (fun t => shown t = [0, 0x4F, 0x04, 0x16, 1, 1]) = true := by
  decide +kernel

/-- R217: 86 bytes; mode, clock, the SUCTION_LOW, RECORD_DAMAGED and isolation bits, slot count 2. -/
theorem test_status :
    ends (.status (watch [])) { running with elapsed := 5000 } (fun t =>
      (shown t).length = 86 && (shown t).take 7 = [0, 1, 0, 0, 0, 5, 0xA1] && (shown t)[46]? = some 0x02) = true := by
  decide +kernel

/-- R218: 58 bytes; station 2 is PRODUCING, fresh with its position present, K 4200, target and position 500. -/
theorem test_stationQuery :
    ends (.stationQuery (watch [2])) bank (fun t =>
      (shown t).length = 58 && (shown t).take 7 = [0, 2, 2, 0, 0x11, 0x10, 0x68] &&
        ((shown t).drop 20).take 5 = [2, 0x01, 0xF4, 0x01, 0xF4]) = true := by decide +kernel

/-- R216: the values of the items in code order, from P_f 300 and H 40. -/
theorem test_bankQuery :
    ends (.bankQuery (watch [])) bank (fun t =>
      (shown t).take 5 = [0, 0x01, 0x2C, 0, 40] && (shown t).length ≤ 120) = true := by decide +kernel

theorem test_sweepQuery :
    ends (.sweepQuery (watch [])) { bank with sampler := { bank.sampler with sweepEntries := entriesOf [3, 0] } }
      (fun t => (shown t).take 4 = [0, 2, 4, 1]) = true := by decide +kernel

/-- R61 with R187: of two neighbouring damaged words the later one is found while the list closes up over the first. -/
theorem test_sweepQuery_finds_damage :
    ends (.sweepQuery (watch []))
      { bank with
        sampler := { bank.sampler with sweepEntries := entriesOf [0, 1, 2, 3, 4, 5, 6, 7, 8, 9] }
        memory := { bank.memory with wrongBits := [(448, 3), (449, 3)] } }
      (fun t => t.sampler.sweepList = [8, 9] && t.memory.damageList = [448, 449] && t.memory.wrongBits = []) = true := by
  decide +kernel

theorem test_tripQuery : ends (.tripQuery (watch [])) bank (fun t => (shown t).head? = some 0) = true := by
  decide +kernel

theorem test_integrityQuery :
    ends (.integrityQuery (watch [])) { bank with memory := { bank.memory with corrections := 14 } }
      (fun t => (shown t).take 3 = [0, 0, 14]) = true := by decide +kernel

/-- A FAULTED VALVE_STALL record at 1 s, as R219 lays it out. -/
def oneEvent : State :=
  { bank with events := { bank.events with queue := [⟨.state, 7, none, 1, some 21⟩], overflow := 2 } }

theorem test_peekEvents :
    ends (.peekEvents (watch [8])) oneEvent (fun t =>
      shown t = [0, 1, 1, 2, 1, 0, 7, 0, 0, 0, 1, 1, 0, 21] && t.events.queue.length = 1) = true := by decide +kernel

theorem test_takeEvents :
    ends (.takeEvents (ask [8])) oneEvent (fun t => t.events.queue = [] && t.events.overflow = 2) = true := by
  decide +kernel

theorem test_stationSet_assigns :
    ends (.stationSet (ask [16, 1, 0x10, 0x68])) bank (fun t =>
      tells .ok t && (t.cfg 15).k = 4200 && (t.work 15).state = .standby) = true := by decide +kernel

theorem test_stationSet_without_coefficient :
    ends (.stationSet (ask [16, 2, 0, 60])) bank (fun t => tells .badValue t && (t.work 15).state = .unused) = true := by
  decide +kernel

theorem test_start :
    ends (.start (ask [1, 1])) bank (fun t =>
      tells .ok t && (t.work 0).state = .producing && (t.work 0).target = 500 && t.drive.queue = [⟨0, 500⟩] &&
        t.events.queue.map EventRecord.value = [some 2]) = true := by decide +kernel

theorem test_start_granted :
    ends (.start (ask [1, 1])) running (fun t =>
      motionOf t 0 = some ⟨0, 500, 0, 0, .running .opening (some 0) 0⟩ && t.drive.lastMotorStart = some 0) = true := by
  decide +kernel

theorem test_stationStop :
    ends (.stationStop (ask [2, 2])) bank (fun t => (t.work 1).state = .standby && (t.work 1).target = 0) = true := by
  decide +kernel

theorem test_isolate :
    ends (.isolate (ask [5, 3])) bank (fun t => (t.work 4).state = .isolated && t.drive.queue = []) = true := by
  decide +kernel

theorem test_release :
    ends (.release (ask [4, 4])) bank (fun t => (t.work 3).state = .standby && t.drive.queue = []) = true := by
  decide +kernel

/-- R23: the position is within the deadband of 0, so the move completes at once and the settle time starts. -/
theorem test_clearFault :
    ends (.clearFault (ask [5, 5])) bank (fun t =>
      (t.work 4).state = .standby && (t.work 4).lastMoveDone = some 0 && (t.work 4).settleExpiry = some 60) = true := by
  decide +kernel

theorem test_clearFault_damaged : ends (.clearFault (ask [6, 5])) bank (fun t => tells .wrongState t) = true := by
  decide +kernel

theorem test_unassign :
    ends (.unassign (ask [1, 6])) bank (fun t =>
      (t.work 0).state = .unused && (t.cfg 0).k = 0 && (t.work 0).position = some 0) = true := by decide +kernel

theorem test_pin :
    ends (.pin (ask [2, 7])) bank (fun t => (t.cfg 1).pinned && (t.work 1).target = 500) = true := by decide +kernel

theorem test_unpin_unused : ends (.unpin (ask [7, 8])) bank (fun t => tells .wrongState t) = true := by decide +kernel

theorem test_sampleNow :
    ends (.sampleNow (ask [2, 9])) running (fun t =>
      t.sampler.phase = .purging && (t.sampler.inFlight.map fun m => (m.line, m.purge, m.due)) = some (2, 30, 2000)) =
      true := by decide +kernel

theorem test_sweepSet :
    ends (.sweepSet (ask [4, 2])) bank (fun t => t.sampler.sweepList = [3, 1] && t.sampler.pointer = 0) = true := by
  decide +kernel

theorem test_sweepSet_bad_entry : ends (.sweepSet (ask [4, 17])) bank (fun t => tells .badValue t) = true := by
  decide +kernel

theorem test_lineSet :
    ends (.lineSet (ask [18, 1])) bank (fun t => t.sampler.classes[18] = .far && t.sampler.classes[17] = .near) =
      true := by decide +kernel

/-- R56: line 0 is always NEAR. -/
theorem test_lineSet_line_zero : ends (.lineSet (ask [0, 1])) bank (fun t => tells .badValue t) = true := by
  decide +kernel

theorem test_clearLine :
    ends (.clearLine (ask [2])) { bank with sampler := { bank.sampler with
        marks := bank.sampler.marks.set 2 true, claim17 := some 1 } }
      (fun t => t.sampler.marks[2] = false && t.sampler.claim17 = none) = true := by decide +kernel

theorem test_clearAnalyser :
    ends (.clearAnalyser (ask [])) { running with sampler := { running.sampler with
        phase := .paused, faultCount := 3, analyserFault := true } }
      (fun t => t.sampler.phase = .idle && t.sampler.faultCount = 0 &&
        t.events.queue.map EventRecord.edge = [some .clear]) = true := by decide +kernel

/-- R97: P_f below P_trip refuses the whole set. -/
theorem test_bankSet_cross_check : ends (.bankSet (ask [1, 0, 240])) bank (fun t => tells .badValue t) = true := by
  decide +kernel

theorem test_bankSet_role_outside_idle : ends (.bankSet (ask [31, 0, 2])) running (fun t => tells .wrongMode t) = true := by
  decide +kernel

theorem test_tripSet :
    ends (.tripSet (ask [1, 0, 4, 7, 0, 1, 8, 0, 1])) { bank with pins := { bank.pins with pumpOpen := true } }
      (fun t => t.trip.output && t.trip.timer = some 0 && t.bank.mode = .idle) = true := by decide +kernel

theorem test_run :
    ends (.run (ask [1])) bank (fun t =>
      t.bank.mode = .running && t.bank.isolation && t.sampler.phase = .idle &&
        t.events.queue.map EventRecord.value = [some 1]) = true := by decide +kernel

/-- R151: a refused request changes nothing, so it reads nothing either. -/
theorem test_run_refused :
    (let s := { tripped with memory := { tripped.memory with wrongBits := [(8, 3), (398, 3)] } }
     ends (.run (ask [1])) s (fun t => tells .wrongMode t && t.memory = s.memory && t.stations = s.stations)) = true := by
  decide +kernel

theorem test_noticeSet :
    ends (.noticeSet (ask [1, 0, 2])) { bank with events := { bank.events with flags := ⟨true, false, false, false⟩ } }
      (fun t => t.settings.notice.mode = .frames && t.events.notices = [⟨0, ⟨true, false, false, false⟩⟩]) = true := by
  decide +kernel

theorem test_castSet :
    ends (.castSet (ask [2, 0, 5])) { bank with events := { bank.events with drops := 7 } }
      (fun t => t.settings.cast.base = 5 && t.events.drops = 0) = true := by decide +kernel

theorem test_integrityClear :
    ends (.integrityClear (ask [])) { bank with memory := { bank.memory with damageList := [130, 385] } }
      (fun t => t.memory.damageList = [] && (t.work 5).damaged) = true := by decide +kernel

/-- R194: the record is cleared first, so the damage that the evaluation behind it finds stands. -/
theorem test_integrityClear_then_evaluates :
    ends (.integrityClear (ask []))
      { bank with memory := { bank.memory with damageList := [385], corrections := 7, wrongBits := [(8, 3)] } }
      (fun t => t.memory.damageList = [8] && t.memory.corrections = 0 && (t.work 0).damaged) = true := by decide +kernel

theorem test_restartCold :
    ends (.restartCold (ask [1])) bank (fun t =>
      t.control.held.map HeldRequest.restart = some (some .cold) && (t.work 0).state = .standby) = true := by
  decide +kernel

theorem test_broadcast_restartWarm :
    ends (.restartWarm (shout [2])) bank (fun t =>
      (t.work 1).state = .standby && (t.work 5).state = .faulted .record && (t.cfg 1).k = 4200) = true := by
  decide +kernel

theorem test_unknownKind : ends (.unknownKind 0x0F (ask [])) bank (fun t => tells .unknownKind t) = true := by
  decide +kernel

theorem test_coldRestart : ends .coldRestart running (fun t => t = State.reset) = true := by decide +kernel

theorem test_warmRestart :
    ends .warmRestart { running with restartDue := some .warm }
      (fun t => t.bank.mode = .idle && t.restartDue = none && (t.cfg 1).k = 4200) = true := by decide +kernel

theorem test_frameSilenceTimeout :
    ends (.frameSilenceTimeout .control [0xC5, 1]) bank (fun t => t = bank) = true := by decide +kernel

theorem test_frameCheckFail : ends (.frameCheckFail .control [0xC5, 1, 2, 0, 0, 0]) bank (fun t => t = bank) = true := by
  decide +kernel

theorem test_frameLengthDiscard :
    ends (.frameLengthDiscard .control 1 2 121) bank (fun t => t = bank) = true := by decide +kernel

theorem test_frameIgnored : ends (.frameIgnored .monitor 9 2 [1, 2]) bank (fun t => t = bank) = true := by
  decide +kernel

theorem test_replySent :
    ends (.replySent .control)
      { bank with control := { bank.control with
          held := some ⟨0x1E, [0], true, some .warm⟩, transmitter := some ⟨1, 0x9E, [0], 4⟩ } }
      (fun t => t.control.held = none && t.restartDue = some .warm && t.elapsed = 4) = true := by decide +kernel

theorem test_notice :
    ends .notice { bank with events := { bank.events with
        notices := [⟨0, ⟨true, false, false, false⟩⟩], flags := ⟨true, false, true, false⟩ } }
      (fun t => t.events.notices = [] && t.control.transmitter.map SentFrame.body = some [0, 5]) = true := by
  decide +kernel

theorem test_eventCopy :
    ends .eventCopy { bank with events := { bank.events with backlog := [⟨⟨.state, 101, none, 1, some 1⟩, false⟩] } }
      (fun t => t.events.backlog = [] && t.monitor.transmitter.map SentFrame.kind = some 0xE1) = true := by
  decide +kernel

/-- The code of a position loop at an opening. -/
def codeOf (opening : Nat) : Code := BitVec.ofNat 12 (819 + (opening * 3276 + 999) / 1000)

/-- R37: code 2000 of a position loop, span 1000: (2000 − 819) × 1000 / 3276 = 360. -/
theorem test_conversion :
    ends (.conversion (Vector.replicate 35 2000)) bank (fun t =>
      t.elapsed = 1000 && (t.work 0).position = some 360 && (suctionInput t).status = .good) = true := by decide +kernel

/-- R131, R30: a motion completes at a conversion that brings its station within 5 of the target. -/
theorem test_conversion_completes :
    ends (.conversion ((Vector.replicate 35 2000).set 17 (codeOf 505))) { running with
        drive := { running.drive with motions := [⟨1, 500, 0, 480, .running .opening (some 480) 0⟩] } } (fun t =>
      (motionOf t 1).isNone && (t.work 1).lastMoveDone = some 1 && (t.work 1).settleExpiry = some 61) = true := by
  decide +kernel

theorem test_changeoverEnd :
    ends .changeoverEnd { running with sampler := { running.sampler with
        phase := .purging, inFlight := some ⟨.sweep 1, 2, 30, 2, none, 0, 0, 0, false, 2000⟩ } }
      (fun t => (t.sampler.inFlight.map fun m => (m.start, m.due)) = some (some 2, 32000)) = true := by decide +kernel

theorem test_purgeEnd_no_flow :
    ends (.purgeEnd false false) (sampling .purging) (fun t =>
      t.sampler.marks[2] && t.sampler.inFlight = none && (t.work 1).state = .faulted .sampleLine) = true := by
  decide +kernel

/-- The second of two readings, each 500 per mille of methane and 125 of oxygen, files (400 + 500 + 1) / 2 = 450. -/
theorem test_reading_files :
    ends (.reading false) (sampling .reading) (fun t =>
      ((t.work 1).quality.map fun q => (q.c, q.o, q.readings, q.area)) = some (450, 78, 2, .good)) = true := by
  decide +kernel

/-- R90: the station that is about to be retired has been selected again, and that sample is abandoned. -/
theorem test_reading_exhausts :
    (let s := (sampling .reading).setWork 1 { (sampling .reading).work 1 with quarantineCount := 3 }
     ends (.reading false)
       { s with
         measure := { s.measure with inputs := s.measure.inputs.set 33 ⟨819, .good, 2⟩ }
         sampler := { s.sampler with sweepEntries := entriesOf [1], inFlight := s.sampler.inFlight.map fun m => { m with methaneSum := 0 } } }
       (fun t => (t.work 1).state = .standby && t.sampler.inFlight = none && t.sampler.phase = .idle &&
         t.sampler.passCount = 1)) = true := by decide +kernel

theorem test_settleExpiry :
    ends (.settleExpiry 1) (running.setWork 1 { running.work 1 with settleExpiry := some 60 }) (fun t =>
      t.elapsed = 60000 && (t.work 1).settleExpiry = none && t.sampler.phase = .purging) = true := by decide +kernel

/-- A MASTER with the default lead of 2 s before its round at 120. -/
def master : State :=
  { running with settings := { running.settings with bank := { running.settings.bank with role := .master } } }

def slave : State :=
  { running with
    settings := { running.settings with bank := { running.settings.bank with role := .slave } }
    bank := { running.bank with roundTimer := none } }

theorem test_markLead :
    ends .markLead master (fun t => t.elapsed = 118000 && t.link.markDrive && t.link.hold) = true := by decide +kernel

theorem test_markPulseEnd :
    ends .markPulseEnd { master with link := { master.link with markDrive := true, markPulseEnd := some 120100 } }
      (fun t => t.elapsed = 120100 && !t.link.markDrive) = true := by decide +kernel

theorem test_markRise : ends .markRise slave (fun t => t.link.hold && t.link.lastMark = some 0) = true := by
  decide +kernel

/-- R178: an ALONE part does not read MARK. -/
theorem test_markRise_alone :
    ends .markRise running (fun t => t = { running with pins := { running.pins with markActive := true } }) = true := by
  decide +kernel

theorem test_markFall :
    ends .markFall { slave with
        pins := { slave.pins with markActive := true }, link := { slave.link with hold := true, markSince := some 0 } }
      (fun t => !t.link.hold && t.balancer.lastRound.isSome) = true := by decide +kernel

/-- R181, cause 2: three balance periods of 120 s without a rising edge. -/
theorem test_linkLost :
    ends .linkLost slave (fun t =>
      t.elapsed = 360000 && t.link.state = .lost && t.bank.roundTimer = some 480 &&
        t.events.queue.map EventRecord.value = [some 2]) = true := by decide +kernel

/-- The RUNNING bank with station 1's motor started at 0 and station 3 queued. -/
def moving (phase : MotionPhase) : State :=
  { running.setWork 0 { running.work 0 with target := 500, position := some 480, state := .producing } with
    drive := { queue := [⟨2, 200⟩], motions := [⟨0, 500, 0, 480, phase⟩], lastMotorStart := some 0 } }

theorem test_startGapEnd :
    ends .startGapEnd (moving (.running .opening (some 480) 0)) (fun t =>
      t.elapsed = 3000 && t.drive.queue = [] && t.drive.motions.length = 2) = true := by decide +kernel

theorem test_inchPeriod :
    ends (.inchPeriod 0) (moving (.inching 1 0 2000 none)) (fun t =>
      motionOf t 0 = some ⟨0, 500, 0, 480, .inching 2 2000 4000 (some (.opening, 2500))⟩) = true := by decide +kernel

theorem test_inchPeriod_miss :
    ends (.inchPeriod 0) (moving (.inching 20 0 2000 none)) (fun t =>
      (motionOf t 0).isNone && (t.work 0).lastMoveDone = some 2 &&
        t.events.queue.map (fun e => (e.kind, e.value)) = [(.miss, some 480)]) = true := by decide +kernel

theorem test_inchPulseEnd :
    ends (.inchPulseEnd 0) (moving (.inching 1 0 2000 (some (.opening, 500)))) (fun t =>
      t.elapsed = 500 && motorOutput t 0 = .off) = true := by decide +kernel

theorem test_reversalPauseEnd :
    ends (.reversalPauseEnd 0) ((moving (.reversing 2000)).setWork 0
        { (moving (.reversing 2000)).work 0 with position := some 600 }) (fun t =>
      motorOutput t 0 = .closing && t.elapsed = 2000) = true := by decide +kernel

theorem test_timeout :
    ends (.timeout 0) (moving (.running .opening (some 480) 0)) (fun t =>
      t.elapsed = 300000 && (t.work 0).state = .faulted .valveTimeout && (t.work 0).target = 0) = true := by
  decide +kernel

/-- A bank whose trip function is A with source PUMP_STOPPED and persistence 0. -/
def quick : State :=
  { running with settings := { running.settings with trip :=
      { running.settings.trip with termA := ⟨.pumpStopped, false⟩, function := .a } } }

theorem test_pumpRunContact :
    ends (.pumpRunContact true) quick (fun t => t.bank.mode = .tripped && t.trip.output) = true := by decide +kernel

theorem test_arrestorContact :
    ends (.arrestorContact true) quick (fun t => t.bank.mode = .running && t.pins.arrestorClosed) = true := by
  decide +kernel

theorem test_tripLineSensed :
    ends (.tripLineSensed true) quick (fun t => linkTrip t && t.bank.mode = .running) = true := by decide +kernel

theorem test_tripPulseEnd :
    ends .tripPulseEnd { tripped with trip := { tripped.trip with line := .pulse 2000 } }
      (fun t => t.trip.line = .released && t.elapsed = 2000) = true := by decide +kernel

theorem test_scrub_wraps :
    ends .scrub { bank with memory := { bank.memory with scrubPointer := 511 } }
      (fun t => t.memory.scrubPointer = 0 && t.memory.scrubDue = 1000) = true := by decide +kernel

theorem test_writeBack :
    ends (.writeBack 398) { oneWrongBit with memory := { oneWrongBit.memory with writeBacks := [398] } }
      (fun t => t.memory.wrongBits = [] && t.memory.writeBacks = []) = true := by decide +kernel

theorem test_blinkDropEnd :
    ends .blinkDropEnd { bank with events := { bank.events with blinkDrop := some 50 } }
      (fun t => t.events.blinkDrop = none && t.elapsed = 50) = true := by decide +kernel

theorem test_powerLoss :
    ends .powerLoss running (fun t => !t.powered && !t.bank.isolation && (t.work 1).state = .unused) = true := by
  decide +kernel

theorem test_no_word_spells_a_command : decodeTableWord 8 0xC5 = none ∧ State.reset.withFetchWord 8 0xC5 = State.reset :=
  ⟨rfl, rfl⟩

/-! ### Witnesses: states and operands that meet the hypotheses of each obligation, clause by clause -/

/-- The RUNNING bank with a trip by command waiting. -/
def busy : State := { running with pending := [.tripNow (ask [4])] }

theorem busy_steps : ∃ t, step busy = .next t := ⟨_, rfl⟩

theorem busy_few : FewWrongBits busy := by unfold FewWrongBits; decide +kernel

theorem busy_table : TableSound busy where
  memory := by decide +kernel
  few := busy_few
  complete := by unfold ConfigsComplete; decide +kernel
  damaged := by
    have : ∀ i : StationIx, (busy.work i).damaged = true → (busy.work i).state = .faulted .record := by decide +kernel
    exact fun i h => ⟨_, this i h⟩
  targets := by unfold TargetsClamped; decide +kernel
  runs := by unfold RunsBounded; decide +kernel

theorem met_StepTakesFrontCommand :
    (bank.withPending [.scrub, .notice]).pending = .scrub :: [.notice] := rfl

theorem met_IdleStepTicks : bank.pending = [] ∧ bank.powered = true ∧
    (losePower bank).pending = [] ∧ (losePower bank).powered = false := by decide +kernel

theorem met_StepKeepsIsolation : IsolationFollowsMode busy ∧ ∃ t, step busy = .next t :=
  ⟨by unfold IsolationFollowsMode; decide +kernel, busy_steps⟩

theorem met_StepKeepsEventUnit : EventsBounded busy ∧ NoticesSound busy ∧ ∃ t, step busy = .next t :=
  ⟨by unfold EventsBounded; decide +kernel, by unfold NoticesSound; decide +kernel, busy_steps⟩

theorem met_StepKeepsSampler : (∃ t, step busy = .next t) ∧ SamplerPhased busy ∧ SamplerBounded busy :=
  ⟨busy_steps, by unfold SamplerPhased; decide +kernel, by unfold SamplerBounded; decide +kernel⟩

theorem met_StepKeepsTripLines : TripSound busy ∧ ∃ t, step busy = .next t :=
  ⟨by unfold TripSound; decide +kernel, busy_steps⟩

theorem met_StepKeepsDrive : FewWrongBits busy ∧ DriveSound busy ∧ ∃ t, step busy = .next t :=
  ⟨busy_few, by unfold DriveSound; decide +kernel, busy_steps⟩

theorem met_StepKeepsMemory : MemorySound busy ∧ ∃ t, step busy = .next t :=
  ⟨by unfold MemorySound; decide +kernel, busy_steps⟩

theorem met_StepKeepsTable : TableSound busy ∧ ∃ t, step busy = .next t := ⟨busy_table, busy_steps⟩

theorem met_StepKeepsSampling :
    FewWrongBits busy ∧ ClaimsSound busy ∧ SamplingSound busy ∧ ∃ t, step busy = .next t :=
  ⟨busy_few, by unfold ClaimsSound; decide +kernel, by unfold SamplingSound; decide +kernel, busy_steps⟩

theorem met_StepKeepsOutput : TableSound busy ∧ OutputCurrent busy ∧ ∃ t, step busy = .next t :=
  ⟨busy_table, by unfold OutputCurrent; decide +kernel, busy_steps⟩

theorem met_CommandsKeepQueue : ∃ t, exec .scrub bank = .next t := ⟨_, rfl⟩

theorem met_IsolationEnergisedByModeRequests :
    bank.bank.isolation = false ∧ ends (.run (ask [1])) bank (fun t => t.bank.isolation) = true := by decide +kernel

theorem met_UnpoweredPartStandsStill :
    (losePower bank).powered = false ∧ Instr.scrub ≠ .coldRestart ∧ Instr.scrub ≠ .powerLoss := by decide +kernel

/-- A request to address 30, one that finds a held request, a broadcast query, and a broadcast on the monitor port. -/
theorem met_RequestsWithNoEffect :
    requestOf (.run ⟨.control, 30, [1]⟩) = some (runRow, ⟨.control, 30, [1]⟩) ∧ running.powered = true ∧
      ((30 : Byte) ≠ broadcast ∧ ownAddress running 30 = false) ∧
      ({ running with control := { running.control with held := some ⟨1, [0], false, none⟩ } }.port
        .control).held.isSome = true ∧
      (shout []).address = broadcast ∧ statusRow.query = true ∧ (⟨.monitor, 31, [1]⟩ : Request).port = .monitor :=
  ⟨rfl, by decide +kernel⟩

theorem met_RefusedBeforeOwner :
    requestOf (.run (watch [1])) = some (runRow, watch [1]) ∧ Taken (watch [1]) running ∧ runRow.query = false ∧
      (watch [1]).port = .monitor ∧
      requestOf (.run (ask [1, 1])) = some (runRow, ask [1, 1]) ∧ Taken (ask [1, 1]) running ∧
      runRow.lengthOk (ask [1, 1]).body.length = false :=
  ⟨rfl, taken_watch quiet_running _, rfl, rfl, rfl, (taken_ask quiet_running _).1, rfl⟩

theorem met_UnknownKindAnswered :
    unknownKind 0x1F = true ∧ unknownKind 0x7F = true ∧ Taken (ask []) running ∧ (shout []).address = broadcast :=
  ⟨by decide +kernel, by decide +kernel, (taken_ask quiet_running _).1, rfl⟩

theorem met_RepliesBeginAndEnd :
    ∀ b : Bool, ({ bank with control := { bank.control with held := some ⟨0x11, [0], b, none⟩ } }.port .control).held =
      some ⟨0x11, [0], b, none⟩ := fun _ => rfl

theorem met_UnsolicitedFrames :
    bank.powered = true ∧ bank.control.held = none ∧ bank.monitor.held = none ∧
      { bank.events with notices := [⟨3, ⟨false, false, false, true⟩⟩] }.notices = ⟨3, ⟨false, false, false, true⟩⟩ :: [] ∧
      { bank.events with backlog := [⟨⟨.state, 1, none, 0, some 2⟩, true⟩] }.backlog =
        ⟨⟨.state, 1, none, 0, some 2⟩, true⟩ :: [] := by decide +kernel

theorem met_FramesNotTaken :
    bank.powered = true ∧ (bank.port .control).receiver = .hunt ∧
      (Instr.frameCheckFail .control [0xC5, 1, 1, 0, 0, 0]).wellFormed = true ∧ 120 < (121 : Byte).toNat ∧
      (List.replicate 120 (0 : Byte)).length ≤ 120 := by decide +kernel

/-! #### Queries and station requests -/

theorem met_PlainQueriesAnswered : Taken (watch []) bank ∧ (watch []).body = [] ∧ bank.drive.queue.length ≤ 16 :=
  ⟨taken_watch quiet_bank _, rfl, by decide +kernel⟩

theorem met_StationQueryAnswered :
    (∀ n, Taken (watch [n]) bank ∧ (watch [n]).body = [n]) ∧
      (1 : Byte).toNat = (0 : StationIx).val + 1 ∧ (16 : Byte).toNat = (15 : StationIx).val + 1 ∧
      (0 : Byte).toNat = 0 ∧ 16 < (17 : Byte).toNat :=
  ⟨fun _ => ⟨taken_watch quiet_bank _, rfl⟩, by decide +kernel⟩

theorem met_EventsPeekedAndTaken :
    (∀ n, Taken (ask [n]) oneEvent ∧ (ask [n]).body = [n] ∧ (ask [n]).port = .control ∧
      Taken (watch [n]) oneEvent ∧ (watch [n]).port = .monitor) ∧
      1 ≤ (1 : Byte).toNat ∧ (8 : Byte).toNat ≤ 8 ∧ (0 : Byte).toNat = 0 ∧ 8 < (9 : Byte).toNat := by
  have h : Quiet oneEvent := by unfold Quiet Undisturbed; decide +kernel
  exact ⟨fun _ => ⟨(taken_ask h _).1, rfl, rfl, taken_watch h _, rfl⟩, by decide +kernel⟩

/-- The numbers beside 1..16, for the eight commands of the statements StartProduces to PinAndUnpin. -/
theorem met_RefusesOtherNumbers :
    (∀ n operation, TakenControl (ask [n, operation]) running ∧ (ask [n, operation]).body = [n, operation]) ∧
      (0 : Byte).toNat = 0 ∧ 16 < (17 : Byte).toNat :=
  ⟨fun _ _ => ⟨taken_ask quiet_running _, rfl⟩, by decide⟩

theorem met_StartProduces :
    TakenControl (ask [1, 1]) running ∧ (running.work 0).state = .standby ∧ running.bank.mode ≠ .tripped ∧
      Drivable 0 running ∧ bank.bank.mode = .idle ∧
      TakenControl (ask [1, 1]) tripped ∧ tripped.bank.mode = .tripped ∧ (running.work 1).state ≠ .standby :=
  ⟨taken_ask quiet_running _, by decide +kernel, by decide +kernel, by unfold Drivable; decide +kernel,
    by decide +kernel, taken_ask quiet_tripped _, by decide +kernel, by decide +kernel⟩

theorem met_StationStopStandsBy :
    TakenControl (ask [2, 2]) running ∧ (running.work 1).state.active = true ∧ (running.work 2).state.active = true ∧
      (running.work 0).state.active = false :=
  ⟨taken_ask quiet_running _, by decide +kernel⟩

theorem met_IsolateTakesStationOut :
    TakenControl (ask [5, 3]) running ∧ (running.work 4).state.assigned = true ∧ (running.work 4).damaged = false ∧
      (running.work 4).state ≠ .isolated ∧ (running.work 15).state.assigned = false ∧
      (running.work 5).damaged = true :=
  ⟨taken_ask quiet_running _, by decide +kernel⟩

theorem met_ReleaseStandsBy :
    TakenControl (ask [4, 4]) bank ∧ (bank.work 3).state = .isolated ∧ TargetsClamped bank ∧
      (bank.work 0).state ≠ .isolated :=
  ⟨taken_ask quiet_bank _, by decide +kernel, by unfold TargetsClamped; decide +kernel, by decide +kernel⟩

/-- A FAULTED station at 6, just outside the deadband of 0. -/
def strayed : State := bank.setWork 4 { bank.work 4 with position := some 6 }

theorem met_ClearFaultStandsBy :
    TakenControl (ask [5, 5]) bank ∧ (bank.work 4).state = .faulted .positionLine ∧ (bank.work 4).damaged = false ∧
      (bank.work 4).position = some 3 ∧ queued bank 4 = false ∧ motionOf bank 4 = none ∧ (bank.work 4).target = 0 ∧
      TakenControl (ask [5, 5]) strayed ∧ (strayed.work 4).position = some 6 ∧ strayed.bank.mode = .idle ∧
      (bank.work 0).state.isFaulted = false ∧ (bank.work 5).damaged = true ∧
      (put 6 (.faulted .valveStall) id bank).work 6 =
        { StationWork.cold with state := .faulted .valveStall, position := none } :=
  ⟨taken_ask quiet_bank _, by decide +kernel, by decide +kernel, by decide +kernel, by decide +kernel,
    by decide +kernel, by decide +kernel, taken_ask (by unfold Quiet Undisturbed; decide +kernel) _, by decide +kernel⟩

theorem met_UnassignReturnsDefaults :
    TakenControl (ask [1, 6]) bank ∧ (bank.work 0).state = .standby ∧ (bank.work 1).state ≠ .standby :=
  ⟨taken_ask quiet_bank _, by decide +kernel⟩

theorem met_PinAndUnpin :
    TakenControl (ask [2, 7]) running ∧ TakenControl (ask [2, 8]) running ∧ (running.work 1).state.assigned = true ∧
      (running.cfg 1).pinned ≠ true ∧ (running.cfg 1).pinned = false ∧ Drivable 1 running ∧
      (running.work 6).state.assigned = false :=
  ⟨taken_ask quiet_running _, taken_ask quiet_running _, by decide +kernel, by decide +kernel, by decide +kernel,
    by unfold Drivable; decide +kernel, by decide +kernel⟩

/-- The RUNNING bank with a full demand queue, station 2's entry at the tail. -/
def demanding : State :=
  { running with sampler := { running.sampler with demand := [2, 3, 4, 5, 6, 1] } }

/-- The same with five entries, none of them station 2's, while a sample is in flight. -/
def fiveEntries : State :=
  { sampling .purging with sampler := { (sampling .purging).sampler with demand := [2, 3, 4, 5, 6] } }

theorem met_SampleNowAddsDemand :
    (∀ n, TakenControl (ask [n, 9]) running ∧ TakenControl (ask [n, 9]) demanding ∧
      TakenControl (ask [n, 9]) fiveEntries) ∧
      (0 : Byte).toNat = 0 ∧ 16 < (17 : Byte).toNat ∧
      sampleable running 0 = false ∧ sampleable demanding 1 = true ∧ (1 : StationIx) ∈ demanding.sampler.demand ∧
      (sampleable fiveEntries 1 = true ∧ (1 : StationIx) ∉ fiveEntries.sampler.demand ∧
        fiveEntries.sampler.demand.length < 6 ∧ fiveEntries.sampler.phase ≠ .idle) ∧
      (sampleable running 1 = true ∧ running.sampler.phase = .idle ∧ running.sampler.parked = none ∧
        running.sampler.demand = []) :=
  ⟨fun _ => ⟨taken_ask quiet_running _, taken_ask (by unfold Quiet Undisturbed; decide +kernel) _,
    taken_ask (by unfold Quiet Undisturbed; decide +kernel) _⟩, by decide +kernel⟩

/-- A full queue without the station asked for. -/
theorem met_SampleNowAddsDemand_full :
    let s := { running with sampler := { running.sampler with demand := [2, 3, 4, 5, 6, 7] } }
    sampleable s 1 = true ∧ (1 : StationIx) ∉ s.sampler.demand ∧ 6 ≤ s.sampler.demand.length := by decide +kernel

/-- K and v_min at their bounds on UNUSED station 16, and the three ways a result is not complete. -/
theorem met_StationSetAssigns :
    TakenControl (ask [16, 1, 0xFF, 0xFF, 2, 0x01, 0xF4]) bank ∧
      [1, 0xFF, 0xFF, 2, 0x01, (0xF4 : Byte)].length % 3 = 0 ∧
      itemsOk stationItemOk (itemsOf [1, 0xFF, 0xFF, 2, 0x01, 0xF4]) = true ∧ (bank.work 15).state = .unused ∧
      (let c := StationConfig.default.carry (itemsOf [1, 0xFF, 0xFF, 2, 0x01, 0xF4]);
        c.k ≠ 0 ∧ c.vMin ≤ c.startOpening ∧ c.startOpening ≤ c.vMax) ∧
      (StationConfig.default.carry (itemsOf [])).k = 0 ∧
      (let c := StationConfig.default.carry (itemsOf [4, 0, 99]);
        itemsOk stationItemOk (itemsOf [4, 0, 99]) = true ∧ c.startOpening < c.vMin) ∧
      (let c := StationConfig.default.carry (itemsOf [3, 0x01, 0xF3]);
        itemsOk stationItemOk (itemsOf [3, 0x01, 0xF3]) = true ∧ c.vMax < c.startOpening) :=
  ⟨taken_ask quiet_bank _, by decide +kernel⟩

/-- Every field of a STATION SET, each at its default but K. -/
def fullSet : List Byte :=
  [1, 0x10, 0x68, 2, 0, 100, 3, 0x03, 0xE8, 4, 0x01, 0xF4, 5, 0, 50, 6, 0, 0, 7, 0, 1, 8, 0, 0, 9, 0, 2, 10, 0, 3,
    11, 0, 0, 12, 0, 0, 13, 0x01, 0xF4]

theorem met_StationSetReclamps :
    (∀ n rest, TakenControl (ask (n :: rest)) running ∧ (ask (n :: rest)).body = n :: rest) ∧
      ((0 : Byte).toNat = 0 ∧ 16 < (17 : Byte).toNat ∧ itemsOk stationItemOk (itemsOf [14, 0, 0]) = false) ∧
      ((running.work 2).state.assigned = true ∧ (running.work 2).damaged = false ∧
        itemsOk stationItemOk (itemsOf [9, 0, 1]) = true) ∧
      (let c := (running.cfg 2).carry (itemsOf [9, 0, 1]);
        c.vMin ≤ c.startOpening ∧ c.startOpening ≤ c.vMax ∧ carriesAll (itemsOf [9, 0, 1]) stationCodes = false ∧
          c.recoveryCount ≤ (running.work 2).recoveryRun) ∧
      NoTripDue running ∧ Drivable 2 running ∧
      ((running.work 5).state = .faulted .record ∧ (running.work 5).damaged = true ∧ fullSet.length % 3 = 0 ∧
        itemsOk stationItemOk (itemsOf fullSet) = true) ∧
      (let c := (running.cfg 5).carry (itemsOf fullSet);
        c.vMin ≤ c.startOpening ∧ c.startOpening ≤ c.vMax ∧ carriesAll (itemsOf fullSet) stationCodes = true ∧ c.k ≠ 0) ∧
      (let c := (running.cfg 2).carry (itemsOf [3, 0, 99]);
        itemsOk stationItemOk (itemsOf [3, 0, 99]) = true ∧ c.vMax < c.vMin) ∧
      (let c := (running.cfg 2).carry (itemsOf [4, 0, 99]);
        itemsOk stationItemOk (itemsOf [4, 0, 99]) = true ∧ c.startOpening < c.vMin) ∧
      (let c := (running.cfg 2).carry (itemsOf [3, 0x01, 0xF3]);
        itemsOk stationItemOk (itemsOf [3, 0x01, 0xF3]) = true ∧ c.vMax < c.startOpening) :=
  ⟨fun _ _ => ⟨taken_ask quiet_running _, rfl⟩, by decide +kernel, by decide +kernel, by decide +kernel,
    by unfold NoTripDue; decide +kernel, by unfold Drivable; decide +kernel, by decide +kernel, by decide +kernel,
    by decide +kernel⟩

/-! #### The sampler's and the bank's requests -/

theorem met_SweepAndLineSet :
    (∀ body, TakenControl (ask body) running) ∧
      (List.replicate 32 (16 : Byte)).length ≤ 32 ∧
      (List.replicate 32 (16 : Byte)).map BitVec.toNat = (List.replicate 32 (15 : StationIx)).map stationNumber ∧
      (sampling .purging).sampler.phase ≠ .idle ∧
      (∃ b ∈ [(1 : Byte), 17], b.toNat = 0 ∨ 16 < b.toNat) ∧ (∃ b ∈ [(0 : Byte)], b.toNat = 0 ∨ 16 < b.toNat) ∧
      linePairsOk (pairsOf [18, 1, 0, 0]) = true ∧ linePairsOk (pairsOf [19, 0]) = false ∧
      linePairsOk (pairsOf [0, 1]) = false :=
  ⟨fun _ => taken_ask quiet_running _, by decide +kernel⟩

/-- The RUNNING bank PAUSED with the condition true, line 2 marked and its station's claim standing. -/
def paused : State :=
  { running with sampler := { running.sampler with
      phase := .paused, faultCount := 3, analyserFault := true, marks := running.sampler.marks.set 2 true
      claim17 := some 1 } }

theorem met_ClearLineAndAnalyser :
    (∀ body, TakenControl (ask body) paused) ∧ (0 : Byte).toNat = (0 : Line).val ∧
      (18 : Byte).toNat = (18 : Line).val ∧ 18 < (19 : Byte).toNat ∧
      ((2 : Line).val = (1 : StationIx).val + 1 ∧ paused.sampler.marks[2] = true ∧ paused.sampler.claim17 = some 1) ∧
      paused.sampler.phase = .paused ∧ paused.sampler.analyserFault = true ∧ paused.events.queue.length < 24 ∧
      (sampling .purging).sampler.phase = .purging ∧ (sampling .reading).sampler.phase = .reading :=
  ⟨fun _ => taken_ask (by unfold Quiet Undisturbed; decide +kernel) _, by decide +kernel⟩

/-- P_f at its lower bound against P_trip, a bad code, a role change in and outside IDLE, a carried balance period. -/
theorem met_BankSetStores :
    (∀ body, TakenControl (ask body) running ∧ TakenControl (ask body) bank) ∧
      itemsOk bankItemOk (itemsOf [34, 0, 0]) = false ∧
      (itemsOk bankItemOk (itemsOf [1, 0, 249]) = true ∧
        bankCrossOk (codesOf (itemsOf [1, 0, 249])) (running.settings.bank.carry (itemsOf [1, 0, 249])) = false) ∧
      bankCrossOk (codesOf (itemsOf [1, 0, 250])) (running.settings.bank.carry (itemsOf [1, 0, 250])) = true ∧
      (itemsOk bankItemOk (itemsOf [31, 0, 2]) = true ∧
        (running.settings.bank.carry (itemsOf [31, 0, 2])).role ≠ running.settings.bank.role ∧
        running.bank.mode ≠ .idle ∧ bank.bank.mode = .idle) ∧
      (itemsOk bankItemOk (itemsOf [30, 0x02, 0x58]) = true ∧ 30 ∈ codesOf (itemsOf [30, 0x02, 0x58]) ∧
        31 ∉ codesOf (itemsOf [30, 0x02, 0x58]) ∧ running.bank.roundTimer.isSome = true ∧
        bankClock running + (running.settings.bank.carry (itemsOf [30, 0x02, 0x58])).balancePeriod ≤ 4294967295) :=
  ⟨fun _ => ⟨taken_ask quiet_running _, taken_ask quiet_bank _⟩, by decide +kernel⟩

theorem met_TripSetEvaluates :
    (∀ body, TakenControl (ask body) running) ∧ itemsOk tripItemOk (itemsOf [8, 0, 8]) = false ∧
      itemsOk tripItemOk (itemsOf [8, 0, 7]) = true ∧ itemsOk tripItemOk (itemsOf [9, 0, 3]) = true ∧
      (∀ it ∈ itemsOf [9, 0, 3], it.code = 9) ∧ (∃ it ∈ itemsOf [8, 0, 7], it.code ≠ 9) :=
  ⟨fun _ => taken_ask quiet_running _, by decide +kernel⟩

/-- The TRIPPED bank with its function output true. -/
def stillTripped : State := { tripped with trip := { tripped.trip with output := true } }

theorem met_ModeRequestsFollowTable :
    (∀ body, TakenControl (ask body) bank ∧ TakenControl (ask body) running ∧ TakenControl (ask body) tripped ∧
      TakenControl (ask body) stillTripped) ∧
      bank.bank.mode = .idle ∧ running.bank.mode = .running ∧ tripped.bank.mode = .tripped ∧
      tripped.trip.output = false ∧ functionValue (leaveTripped tripped) = false ∧ stillTripped.bank.mode = .tripped ∧
      stillTripped.trip.output = true :=
  ⟨fun _ => ⟨taken_ask quiet_bank _, taken_ask quiet_running _, taken_ask quiet_tripped _,
    taken_ask (by unfold Quiet Undisturbed; decide +kernel) _⟩, by decide +kernel⟩

theorem met_TripStandsDown :
    TakenControl (ask [4]) running ∧ running.bank.mode ≠ .tripped ∧ Undisturbed twoOfThree ∧
      twoOfThree.trip.timer = some 2012000 ∧ twoOfThree.bank.mode ≠ .tripped :=
  ⟨taken_ask quiet_running _, by decide +kernel, by unfold Undisturbed; decide +kernel, by decide +kernel,
    by decide +kernel⟩

/-- A marked and an unmarked STANDBY station in TRIPPED. -/
def marked : State :=
  put 6 .standby (fun w => { w with position := some 0, restartMark := true }) tripped

theorem met_ResumeRestartsMarked :
    TakenControl (ask [3]) marked ∧ marked.bank.mode = .tripped ∧ marked.trip.output = false ∧
      functionValue (leaveTripped marked) = false ∧
      ((marked.work 6).state = .standby ∧ (marked.work 6).position.isSome = true ∧ (marked.work 6).restartMark = true) ∧
      ((marked.work 0).state = .standby ∧ (marked.work 0).position.isSome = true ∧
        (marked.work 0).restartMark = false) :=
  ⟨taken_ask (by unfold Quiet Undisturbed; decide +kernel) _, by decide +kernel⟩

theorem met_NoticeAndCastRequests :
    (∀ body, TakenControl (ask body) bank) ∧ itemsOk noticeItemOk (itemsOf [3, 0, 4]) = true ∧
      itemsOk noticeItemOk (itemsOf [3, 0, 3]) = false ∧
      (bank.settings.notice.carry (itemsOf [3, 0, 4])).mode ≠ .frames ∧ (15 : Byte).toNat ≤ 15 ∧
      15 < (16 : Byte).toNat ∧ itemsOk castItemOk (itemsOf [1, 0, 15]) = true ∧
      itemsOk castItemOk (itemsOf [1, 0, 16]) = false :=
  ⟨fun _ => taken_ask quiet_bank _, by decide +kernel⟩

theorem met_IntegrityClearAndWriteBack :
    TakenControl (ask []) bank ∧ oneWrongBit.powered = true ∧
      (398 : WordIx).val ∈ { oneWrongBit.memory with writeBacks := [398] }.writeBacks ∧
      { oneWrongBit.memory with writeBacks := [398] }.wf = true ∧
      (398 : WordIx).val ∉ oneWrongBit.memory.writeBacks :=
  ⟨taken_ask quiet_bank _, by decide +kernel⟩

/-- The word at the pointer, with its wrong bits. -/
def scrubbing (w : Nat) (bits : WordBits) : State :=
  { running with memory := { running.memory with
      scrubPointer := w, wrongBits := if bits = 0 then [] else [(w, bits)] } }

theorem only_wrong {w v : Nat} (m : WordBits) (h : v ≠ w) : wrongBitsIn [(w, m)] v = 0 := by
  simp [wrongBitsIn, Ne.symm h]

/-- Word 511 good, words 0 and 407 with one wrong bit; and with two: the last word of station 2, which is assigned, the last
word of station 16, which is UNUSED, the first and the last setting, and the first and the last word of the sweep list. -/
theorem met_ScrubReads :
    (∀ s ∈ [scrubbing 511 0, scrubbing 0 1, scrubbing 407 1, scrubbing 47 3, scrubbing 383 3, scrubbing 384 3,
        scrubbing 409 3, scrubbing 448 3, scrubbing 455 3],
      s.powered = true ∧ MemorySound s ∧ FewWrongBits s ∧ s.memory.damageList.length < 16 ∧
        s.events.queue.length < 24) ∧
      (countBits (wrongBitsIn (scrubbing 511 0).memory.wrongBits 511) = 0 ∧
        wrongBitsIn (scrubbing 511 0).memory.wrongBits 407 = 0) ∧
      (countBits (wrongBitsIn (scrubbing 0 1).memory.wrongBits 0) = 1 ∧
        wrongBitsIn (scrubbing 0 1).memory.wrongBits 407 = 0) ∧
      countBits (wrongBitsIn (scrubbing 407 1).memory.wrongBits 407) = 1 ∧
      (∀ w ∈ [47, 383, 384, 409, 448, 455], countBits (wrongBitsIn (scrubbing w 3).memory.wrongBits w) = 2) ∧
      (∀ w v, v ≠ w → wrongBitsIn (scrubbing w 3).memory.wrongBits v = 0) ∧
      ((1 : StationIx).val * 24 ≤ 47 ∧ 47 < (1 : StationIx).val * 24 + 24 ∧
        ((scrubbing 47 3).work 1).state.assigned = true) ∧
      ((15 : StationIx).val * 24 ≤ 383 ∧ 383 < (15 : StationIx).val * 24 + 24 ∧
        ((scrubbing 383 3).work 15).state = .unused ∧ ((scrubbing 383 3).work 15).damaged = false) :=
  ⟨by unfold MemorySound FewWrongBits; decide +kernel, by decide +kernel, by decide +kernel, by decide +kernel,
    by decide +kernel, fun _ _ h => only_wrong 3 h, by decide +kernel, by decide +kernel⟩

/-- The same for a list of six stations: the first word and the one it ends in, and a stray station stored behind the end. -/
theorem met_ScrubReads_sweep :
    let six (w : Nat) : State := { scrubbing w 3 with
      sampler := { running.sampler with sweepEntries := entriesOf [0, 1, 2, 3, 4, 5] } }
    let stray : State := { six 448 with sampler := { running.sampler with
      sweepEntries := (entriesOf [0, 1, 2, 3, 4, 5]).set 31 (some 6) } }
    (∀ s ∈ [six 448, six 449, stray], s.powered = true ∧ MemorySound s ∧ s.sampler.sweepList = [0, 1, 2, 3, 4, 5]) ∧
      ((six 448).memory.scrubPointer = 448 ∧ (six 449).memory.scrubPointer = 449) ∧
      (∀ s ∈ [six 448, six 449], ∀ k : Fin 32, s.sampler.sweepList.length ≤ k.val → s.sampler.sweepEntries[k.val] = none) ∧
      stray.sampler.sweepEntries[31] = some 6 := by
  unfold MemorySound
  decide +kernel

/-! #### Restarts -/

theorem met_RestartRequests :
    (∀ body, TakenControl (ask body) bank) ∧ (0 : Byte) ≠ 1 ∧ (3 : Byte) ≠ 2 ∧ Undisturbed bank ∧
      (shout [1]).address = broadcast ∧ (shout [1]).port = .control :=
  ⟨fun _ => taken_ask quiet_bank _, by decide, by decide, quiet_bank.1, rfl, rfl⟩

theorem met_WarmRestartKeeps :
    let s := { running with
      restartDue := some .warm, memory := { running.memory with wrongBits := [(402, 3)] } }
    s.powered = true ∧ s.restartDue = some .warm ∧ NoTripDue (warmRestartBare s) ∧
      ∀ w, 403 ≤ w → w ≤ 407 → wrongBitsIn s.memory.wrongBits w = 0 :=
  ⟨rfl, rfl, by unfold NoTripDue; decide +kernel, fun _ h _ => only_wrong 3 (by omega)⟩

/-! #### The field and the timers -/

theorem undisturbed_running : Undisturbed running := quiet_running.1

/-- Codes at the four bounds of R37 in the first eight inputs. -/
def boundCodes : Vector Code 35 :=
  ((((((Vector.replicate 35 0).set 1 736).set 2 737).set 3 818).set 4 819).set 5 4094).set 6 4095

theorem met_ConversionHandsOn :
    Undisturbed running ∧ boundCodes[0].toNat ≤ 736 ∧ boundCodes[1].toNat ≤ 736 ∧ 737 ≤ boundCodes[2].toNat ∧
      boundCodes[3].toNat ≤ 818 ∧ 819 ≤ boundCodes[4].toNat ∧ boundCodes[5].toNat ≤ 4094 ∧
      boundCodes[6].toNat = 4095 := ⟨undisturbed_running, by decide +kernel⟩

/-- At most 12 edges in an empty queue; a window that begins and goes on, and one that ends with its fourth value, outside a
hold and in one. -/
theorem met_ConversionHandsOn_windows :
    let ending : State := { running with measure :=
      { running.measure with windows := running.measure.windows.set 6 (some ⟨3, 3, 4, false⟩) } }
    let held : State := { ending with link := { ending.link with hold := true } }
    let entry (k : Fin 35) : InputEntry := convertCode 1 boundCodes[k.val]
    (∀ s ∈ [ending, held], Undisturbed s ∧
        s.events.queue.length + 2 * (allStations.filter fun i => (s.work i).state ≠ .unused).length ≤ 24 ∧
        (s.measure.windows[2] = none ∧ inputValue 4000 (entry 2) = some 0 ∧ 1 < s.settings.bank.windowLength) ∧
        (s.measure.windows[6] = some ⟨3, 3, 4, false⟩ ∧ inputValue 4000 (entry 6) = some 4000 ∧
          windowRecord (s.cfg 6).k (((s.work 6).quality.map QualityResult.c).getD 0) ⟨4003, 4, 4, true⟩ 1 =
            .valid 0 1000 true false 1)) ∧
      ending.link.hold = false ∧ held.link.hold = true := by
  unfold Undisturbed
  decide +kernel

/-- An absent position of a PRODUCING station at rest and of one that is queued in IDLE; and a broken flow loop of a PRODUCING
station at rest whose position is present, at the first code that is not FAULT. -/
theorem met_ConversionHandsOn_faults :
    let waiting : State := { bank with drive := { bank.drive with queue := [⟨1, 500⟩] } }
    (Undisturbed running ∧ Undisturbed waiting) ∧ boundCodes[1 + 16].toNat ≤ 736 ∧
      ((running.work 1).state.active = true ∧ motionStatus running 1 = .none ∧ (running.work 0).state = .standby ∧
        motionStatus running 0 = .none) ∧
      ((waiting.work 1).state.active = true ∧ motionStatus waiting 1 = .queued ∧ waiting.bank.mode = .idle) ∧
      (boundCodes[1].toNat = 736 ∧ 736 < (boundCodes.set 17 737)[1 + 16].toNat ∧ running.link.hold = false) := by
  unfold Undisturbed
  decide +kernel

theorem met_ContactsEvaluate :
    Undisturbed quick ∧
      functionValue { quick with pins := { quick.pins with pumpOpen := true } } = true ∧
      persistenceOf quick.settings.trip.persistence = 0 := by
  unfold Undisturbed
  decide +kernel

/-- A SLAVE in its hold, and one that is LOST, with MARK active since 0. -/
def holding : State :=
  { slave with pins := { slave.pins with markActive := true }, link := { slave.link with hold := true, markSince := some 0 } }

def lost : State :=
  { slave with
    elapsed := 10000
    pins := { slave.pins with markActive := true }, link := { slave.link with state := .lost, markSince := some 0 } }

/-- Every case of an edge by level, role, link state and hold: a rise on an ALONE part, on a SLAVE in step and on a LOST one;
a fall on each, in a hold, with none, at the last moment of a complete mark and behind it, and with no rise seen. -/
theorem met_MarkEdges :
    let high (s : State) : State := { s with pins := { s.pins with markActive := true } }
    let low (s : State) : State := { s with pins := { s.pins with markActive := false } }
    (∀ s ∈ [running, high running, slave, low lost, holding, high slave, lost], Undisturbed s) ∧
      (running.pins.markActive = false ∧ running.settings.bank.role ≠ .slave) ∧
      ((high running).pins.markActive = true ∧ (high running).settings.bank.role ≠ .slave) ∧
      (slave.pins.markActive = false ∧ slave.settings.bank.role = .slave ∧ slave.link.state = .inStep) ∧
      ((low lost).pins.markActive = false ∧ (low lost).settings.bank.role = .slave ∧ (low lost).link.state = .lost) ∧
      (holding.pins.markActive = true ∧ holding.settings.bank.role = .slave ∧ holding.link.state = .inStep ∧
        holding.link.hold = true) ∧
      ((high slave).pins.markActive = true ∧ (high slave).link.state = .inStep ∧ (high slave).link.hold = false) ∧
      (lost.pins.markActive = true ∧ lost.link.state = .lost ∧ lost.settings.bank.role = .slave ∧
        lost.link.markSince = some 0 ∧ lost.elapsed ≤ 0 + 10000 ∧ 0 + 10000 < { lost with elapsed := 10001 }.elapsed ∧
        { lost.link with markSince := none }.markSince = none ∧ lost.events.queue.length < 24) := by
  unfold Undisturbed
  decide +kernel

/-- A round in the hold of a SLAVE: an adjustment, a station that no adjustment names, and nothing parked. -/
theorem met_MarkEdges_round :
    let s := { deficitBank with
      settings := { deficitBank.settings with bank := { deficitBank.settings.bank with role := .slave } }
      pins := { deficitBank.pins with markActive := true }
      link := { deficitBank.link with hold := true, markSince := some 0 } }
    Undisturbed s ∧ (s.settings.bank.role = .slave ∧ s.link.state = .inStep ∧ s.link.hold = true) ∧
      NeverTripsAtOnce s ∧ TargetsClamped s ∧ s.sampler.parked = none ∧ (∀ i : StationIx, s.measure.parked[i.val] = none) ∧
      (⟨1, 500, 200⟩ ∈ (roundRecord s).adjustments ∧ Drivable 1 s) ∧
      ((∀ a ∈ (roundRecord s).adjustments, a.station ≠ 0) ∧ Drivable 0 s) := by
  unfold Undisturbed NeverTripsAtOnce TargetsClamped Drivable
  decide +kernel

theorem met_LinkTimers :
    (Undisturbed master ∧ Undisturbed slave ∧ Undisturbed holding) ∧
      (master.bank.roundTimer = some 120 ∧ master.settings.bank.role = .master ∧ master.link.hold = false ∧
        master.settings.bank.holdLead ≠ 0) ∧
      { master.link with markPulseEnd := some 120100 }.markPulseEnd = some 120100 ∧
      (slave.settings.bank.role = .slave ∧ slave.link.state = .inStep ∧ lossDue slave = some (360000, 2) ∧
        slave.link.hold = false ∧ slave.events.queue.length < 24) ∧
      (lossDue holding = some (10100, 1) ∧ holding.link.hold = true) := by
  unfold Undisturbed
  decide +kernel

/-- A round with two adjustments and two stations that none names, outside a hold and in one with nothing parked; a station
that stands away from its new target, and one that stands at it, at the edge of the deadband. -/
theorem met_RoundTimerExpiry :
    let there : State := deficitBank.setWork 1 { deficitBank.work 1 with position := some 205 }
    let held : State := { deficitBank with link := { deficitBank.link with hold := true } }
    (∀ s ∈ [deficitBank, there, held], Undisturbed s ∧ s.bank.roundTimer = some 120 ∧
      bankClock (passUntil 120000 s) + s.settings.bank.balancePeriod ≤ 4294967295 ∧
      (let now := passUntil 120000 s;
        NeverTripsAtOnce now ∧ TargetsClamped now ∧ now.sampler.parked = none ∧
          (∀ i : StationIx, now.measure.parked[i.val] = none) ∧
          (⟨1, 500, 200⟩ ∈ (roundRecord now).adjustments ∧ Drivable 1 now) ∧
          ((∀ a ∈ (roundRecord now).adjustments, a.station ≠ 0) ∧ Drivable 0 now))) ∧
      ((deficitBank.work 1).position = some 500 ∧ within 500 200 Config.deadband = false) ∧
      ((there.work 1).position = some 205 ∧ within 205 200 Config.deadband = true) ∧ held.link.hold = true := by
  unfold Undisturbed NeverTripsAtOnce TargetsClamped Drivable
  decide +kernel

/-- A sample before its start time, before its first and before its second of four readings. -/
def flight (phase : SamplerPhase) (start : Option Nat) (taken count : Nat) : State :=
  { sampling phase with sampler := { (sampling phase).sampler with
      inFlight := some ⟨.sweep 1, 2, 30, 4, start, taken, 0, 0, false, 2000⟩, faultCount := count } }

/-- The same sample for another source, and the RUNNING bank with spare line 17 for station 2. -/
def flightOf (source : SampleSource) : State :=
  let s := flight .purging (some 0) 0 0
  { s with sampler := { s.sampler with inFlight := s.sampler.inFlight.map fun m => { m with source := source } } }

def spared : State :=
  (flight .purging (some 0) 0 0).setCfg 1 { (flight .purging (some 0) 0 0).cfg 1 with standbyLine := some .line17 }

theorem met_SampleCourse :
    (∀ s ∈ [flight .purging none 0 0, flight .purging (some 0) 0 2, flight .reading (some 0) 1 1, flight .reading (some 0) 2 0],
      Undisturbed s ∧ s.sampler.inFlight.isSome = true ∧ analyserValue 33 s = some 500 ∧ analyserValue 34 s = some 125 ∧
        NoTripDue s ∧ s.events.queue.length < 24) ∧
      (flight .purging none 0 0).sampler.phase = .purging ∧
      ((flight .purging (some 0) 0 2).sampler.phase = .purging ∧ 2 ≤ (flight .purging (some 0) 0 2).sampler.faultCount) ∧
      ((flight .reading (some 0) 1 1).sampler.phase = .reading ∧ (flight .reading (some 0) 1 1).sampler.faultCount < 2) ∧
      2 + 1 < 4 ∧
      (let broken (k : Fin 35) : State := { flight .reading (some 0) 1 1 with measure :=
          { (sampling .reading).measure with inputs := (sampling .reading).measure.inputs.set k.val ⟨736, .fault, 2⟩ } };
        analyserValue 33 (broken 33) = none ∧ analyserValue 34 (broken 34) = none) := by
  unfold Undisturbed NoTripDue
  decide +kernel

/-- No sample flow: with a spare line free, with none named, for a station that is not sampled, and for the reference. -/
theorem met_SampleCourse_no_flow :
    (∀ s ∈ [spared, flight .purging (some 0) 0 0, flightOf (.sweep 0), flightOf .reference],
      Undisturbed s ∧ NoTripDue s ∧ s.sampler.phase = .purging ∧ (s.sampler.inFlight.bind Sample.start).isSome = true ∧
        s.sampler.claim17 = none ∧ s.sampler.claim18 = none ∧ s.events.queue.length < 23 ∧ s.sampler.demand = [] ∧
        s.sampler.parked = none) ∧
      ((spared.work 1).state.active = true ∧ SpareOpen spared 1 2 .line17) ∧
      (((flight .purging (some 0) 0 0).work 1).state.active = true ∧
        ∀ l, ¬ SpareOpen (flight .purging (some 0) 0 0) 1 2 l) ∧
      ((flightOf (.sweep 0)).work 0).state.active = false :=
  ⟨by unfold Undisturbed NoTripDue; decide +kernel, ⟨by decide +kernel, by unfold SpareOpen; decide +kernel⟩,
    ⟨by decide +kernel, fun _ h => nomatch h.1⟩, by decide +kernel⟩

/-- The last of one reading and of two, of a station that is sampled, of one that is not, in a hold, and of the reference:
one that passes and one that fails. -/
theorem met_LastReadingFiles :
    let single (phase : SamplerPhase) (taken methane oxygen : Nat) (source : SampleSource) : State :=
      { sampling phase with sampler := { (sampling phase).sampler with
          inFlight := some ⟨source, 2, 30, taken + 1, some 0, taken, methane, oxygen, false, 2000⟩ } }
    let held : State := { sampling .reading with link := { (sampling .reading).link with hold := true } }
    let clean : State := { single .reading 0 0 0 .reference with measure :=
      { (sampling .reading).measure with
        inputs := ((sampling .reading).measure.inputs.set 33 ⟨819, .good, 2⟩).set 34 ⟨3375, .good, 2⟩ } }
    (∀ s ∈ [sampling .reading, single .purging 0 0 0 (.sweep 1), single .reading 1 400 30 (.sweep 0),
        single .reading 1 400 30 .reference, clean, held],
      Undisturbed s ∧ s.sampler.inFlight.isSome = true ∧ (analyserValue 33 s).isSome = true ∧
        (analyserValue 34 s).isSome = true ∧ (s.sampler.inFlight.all fun m => m.readings ≤ m.taken + 1) = true) ∧
      (sampling .reading).sampler.phase = .reading ∧ (single .purging 0 0 0 (.sweep 1)).sampler.phase = .purging ∧
      sampleable (sampling .reading) 1 = true ∧ sampleable (single .reading 1 400 30 (.sweep 0)) 0 = false ∧
      (sampling .reading).link.hold = false ∧ held.link.hold = true ∧
      (analyserValue 33 clean = some 0 ∧ analyserValue 34 clean = some 195) := by
  unfold Undisturbed
  decide +kernel

/-- Station 2 one quarantine short of its limit of 3, at it, and station 3 one good result short of recovery. -/
def tallied (count : Nat) : State :=
  (running.setWork 1 { running.work 1 with quarantineCount := count }).setWork 2
    { running.work 2 with recoveryRun := count - 2 }

def filed (i : StationIx) (c : Nat) : StationResult := ⟨i, c, 30, 2, false, 0, ownLine i⟩

theorem met_FiledResultIsClassified :
    (∀ n ∈ [2, 3], ∀ i ∈ [(1 : StationIx), 2], sampleable (tallied n) i = true ∧
      ((tallied n).work i).position.isSome = true) ∧
      (let s := tallied 2;
        (s.work 1).state = .producing ∧ (filed 1 149).c < lowerLimit s.settings.bank (s.cfg 1) ∧
          ¬ (filed 1 150).c < lowerLimit s.settings.bank (s.cfg 1) ∧
          (s.work 1).quarantineCount + 1 ≤ (s.cfg 1).quarantineLimit) ∧
      (let s := tallied 3;
        (s.cfg 1).quarantineLimit < (s.work 1).quarantineCount + 1 ∧ (s.work 2).state = .quarantined ∧
          upperLimit s.settings.bank (s.cfg 2) ≤ (filed 2 250).c ∧
          ¬ upperLimit s.settings.bank (s.cfg 2) ≤ (filed 2 249).c ∧
          (s.cfg 2).recoveryCount ≤ (s.work 2).recoveryRun + 1) ∧
      ((tallied 2).work 2).recoveryRun + 1 < ((tallied 2).cfg 2).recoveryCount := by decide +kernel

/-- The same with station 1 at another position, or none. -/
def movingAt (position : Option Nat) (phase : MotionPhase) : State :=
  (moving phase).setWork 0 { (moving phase).work 0 with position := position }

theorem met_DriveTimers :
    (∀ s ∈ [moving (.running .opening (some 480) 0), moving (.inching 19 0 2000 (some (.opening, 500))),
        moving (.inching 20 0 2000 none), movingAt none (.inching 0 0 2000 none),
        movingAt (some 541) (.reversing 2000)],
      Undisturbed s ∧ DriveSound s ∧ (motionOf s 0).isSome = true ∧ s.events.queue.length < 24 ∧
        s.drive.lastMotorStart = some 0 ∧ s.drive.queue = [⟨2, 200⟩] ∧ s.bank.mode ≠ .idle ∧
        s.drive.motions.length < s.settings.bank.slotCount ∧ s.settings.bank.startGap ≠ 0 ∧
        (s.work 2).position = some 50 ∧ within 50 200 s.settings.bank.inchBand = false ∧
        5 ≤ s.settings.bank.inchBand ∧ (s.work 0).state.active = true) ∧
      motionOf (moving (.inching 19 0 2000 (some (.opening, 500)))) 0 =
        some ⟨0, 500, 0, 480, .inching 19 0 2000 (some (.opening, 500))⟩ ∧
      within 480 500 5 = false ∧
      motionOf (moving (.inching 20 0 2000 none)) 0 = some ⟨0, 500, 0, 480, .inching 20 0 2000 none⟩ ∧
      ((moving (.inching 20 0 2000 none)).work 0).target = 500 ∧
      ((movingAt none (.inching 0 0 2000 none)).work 0).position = none ∧
      motionOf (movingAt (some 541) (.reversing 2000)) 0 = some ⟨0, 500, 0, 480, .reversing 2000⟩ ∧
      within 541 500 5 = false ∧ within 541 500 running.settings.bank.inchBand = false := by
  unfold Undisturbed DriveSound
  decide +kernel

/-- What a motion in OPEN to 500 makes of a position: within 5 of the target, at the far edge of the inch band, past the target,
short of the band before and behind its stall time, and absent; and a motion in REVERSING and one in INCHING, at the target and
away from it. -/
theorem met_DriveTimers_positions :
    let at_ (p : Nat) : Vector Code 35 := (Vector.replicate 35 737).set 16 (codeOf p)
    let sees (p : Nat) : Prop := inputValue 1000 (convertCode 0 (at_ p)[16]) = some p
    let run : MotionPhase := .running .opening (some 440) 0
    let late (s : State) : State := { s with elapsed := 8000 }
    (∀ s ∈ [moving run, late (moving run), moving (.reversing 2000), moving (.inching 3 0 2000 none)],
      Undisturbed s ∧ DriveSound s ∧ NeverTripsAtOnce s ∧ s.events.queue.length < 23 ∧ (s.work 0).target = 500) ∧
      (∀ s ∈ [moving run, late (moving run)], motionOf s 0 = some ⟨0, 500, 0, 480, run⟩) ∧ 736 < (at_ 0)[0].toNat ∧
      (sees 495 ∧ within 495 500 5 = true) ∧
      (sees 460 ∧ within 460 500 5 = false ∧ within 460 500 running.settings.bank.inchBand = true) ∧
      (sees 541 ∧ within 541 500 running.settings.bank.inchBand = false ∧ passed .opening 541 500 = true) ∧
      (sees 444 ∧ within 444 500 running.settings.bank.inchBand = false ∧ passed .opening 444 500 = false ∧
        conversionInstant (moving run) = 1000 ∧ stallReference (some 440) 0 1000 (some 444) = (some 440, 0) ∧
        1000 < 0 + running.settings.bank.stallTime * 1000) ∧
      (conversionInstant (late (moving run)) = 8000 ∧ stallReference (some 440) 0 8000 none = (some 440, 0) ∧
        0 + running.settings.bank.stallTime * 1000 ≤ 8000 ∧ (736 : Code).toNat ≤ 736) ∧
      motionOf (moving (.reversing 2000)) 0 = some ⟨0, 500, 0, 480, .reversing 2000⟩ ∧
      motionOf (moving (.inching 3 0 2000 none)) 0 = some ⟨0, 500, 0, 480, .inching 3 0 2000 none⟩ := by
  unfold Undisturbed DriveSound NeverTripsAtOnce
  decide +kernel

theorem met_SmallTimers :
    let s := { (running.setWork 1 { running.work 1 with settleExpiry := some 60 }) with
      trip := { running.trip with line := .pulse 2000 }, events := { running.events with blinkDrop := some 50 }
      sampler := { running.sampler with phase := .paused, demand := [2, 3, 4, 5, 6] } }
    Undisturbed s ∧ (s.work 1).settleExpiry = some 60 ∧ sampleable s 1 = true ∧ s.sampler.demand.length < 6 ∧
      s.sampler.phase ≠ .idle ∧
      (let u := s.setWork 0 { s.work 0 with settleExpiry := some 60 };
        (u.work 0).settleExpiry = some 60 ∧ sampleable u 0 = false) ∧
      s.trip.line = .pulse 2000 ∧ s.events.blinkDrop = some 50 := by
  unfold Undisturbed
  decide +kernel

/-- A window at the smallest differential pressure that flows, one below it, and the largest of all. -/
theorem met_FlowOfWindow :
    (∀ sum ∈ [19, 20, 4000], (⟨sum, 1, 1, false⟩ : FlowWindow).count ≠ 0 ∧ sum / 1 ≤ 4000) ∧ 1000 ≤ 1000 ∧
      19 / 1 < 20 ∧ 20 ≤ 20 / 1 := by decide +kernel

/-- Rounds of each kind that the clauses name. -/
theorem met_RoundDecision :
    (roundRecord empty).outcome = .noFlow ∧ (roundRecord deficitBank).outcome = .deficit ∧
      (roundRecord shortBank).outcome = .shortfall ∧ (roundRecord surplusBank).outcome = .surplus ∧
      (roundRecord { deficitBank with elapsed := 2000000 }).outcome = .noFlow ∧
      (roundRecord { surplusBank with settings := { surplusBank.settings with
        bank := { surplusBank.settings.bank with unknownShare := 0 } } }).outcome = .incomplete ∧
      (roundRecord (inMode .idle .stopped deficitBank)).outcome = .held ∧
      (roundRecord { deficitBank with settings := { deficitBank.settings with
        bank := { deficitBank.settings.bank with purityFloor := 296 } } }).outcome = .band := by decide +kernel

theorem met_RoundAdjustmentsBounded :
    (⟨1, 500, 200⟩ : Adjustment) ∈ (roundRecord deficitBank).adjustments ∧
      (roundRecord deficitBank).purityBreached = true ∧
      (⟨5, 500, 550⟩ : Adjustment) ∈ (roundRecord surplusBank).adjustments ∧
      (roundRecord surplusBank).purityBreached = false ∧ (roundRecord surplusBank).oxygenBreached = false := by
  decide +kernel

end Sys2Proof.Tests
end

section
/-! The station commands RELEASE and UNASSIGN (R18, R22, R24): how a command of a row is answered, what the frame relation
`OnlyTable` is closed under, what a change of state leaves alone, and the two statements. -/

namespace Sys2Proof.Proofs

open Sys2Proof Sys2Proof.Machine Sys2Proof.Laws

/-! ### How a station command is answered (R18, R213) -/

section Commands

variable {operation : Nat} {reads : StationIx → State → List Nat} {act : Access → StationIx → State → Answer}
  {c : Instr} {r : Request} {s t : State} {i : StationIx} {n o : Byte}

theorem stationOf_number (h : n.toNat = i.val + 1) : stationOf n.toNat = some i := by
  simp [stationOf, h]

theorem stationOf_other (h : n.toNat = 0 ∨ 16 < n.toNat) : stationOf n.toNat = none :=
  dif_neg (by omega)

theorem commandRow_act_station (a : Access) (p : Port) (s : State) (hn : n.toNat = i.val + 1)
    (ho : o.toNat = operation) : (commandRow operation reads act).act a p [n, o] s = act a i s := by
  have hs : bodyStation [n, o] = some i := stationOf_number hn
  have hop : bodyOperation [n, o] = operation := ho
  simp only [commandRow, hs, hop, if_true]

theorem commandRow_act_other (a : Access) (p : Port) (s : State) (hn : n.toNat = 0 ∨ 16 < n.toNat) :
    (commandRow operation reads act).act a p [n, o] s = refuse .badValue s := by
  have hs : bodyStation [n, o] = none := stationOf_other hn
  simp only [commandRow, hs]

/-- A command that its owner refuses holds the reply of the status alone. -/
theorem exec_command_refused {st : Status} (hc : requestOf c = some (commandRow operation reads act, r))
    (h : TakenControl r s) (hb : r.body = [n, o])
    (ha : (commandRow operation reads act).act plain .control [n, o] (received .control s) =
      refuse st (received .control s)) :
    exec c s = .next (replied .control 0x11 [st.code] none s) := by
  obtain ⟨taken, hp⟩ := h
  have ha' : (commandRow operation reads act).act plain r.port r.body (received r.port s) =
      refuse st (received r.port s) := by rw [hp, hb]; exact ha
  rw [exec_of_request hc, performRequest_unchanged taken (.inr hp) (by rw [hb]; rfl) ha', hp]
  rfl

/-- Every row of STATION COMMAND refuses a number that is no station's (R18). -/
theorem refusesOtherNumbers_of_row {c : Request → Instr}
    (hc : ∀ r, requestOf (c r) = some (commandRow operation reads act, r)) : RefusesOtherNumbers c o :=
  fun r _ _ h hb hn => exec_command_refused (hc r) h hb (commandRow_act_other plain .control _ hn)

/-- The control port takes the reply OK of a station command. -/
def answeredOk (t : State) : State := setHeld .control (some ⟨0x11, [Status.ok.code], false, none⟩) t

/-- A command that its owner accepts leaves the owner's state, with the reply OK held. -/
theorem exec_command_accepted (hc : requestOf c = some (commandRow operation reads act, r)) (h : TakenControl r s)
    (hb : r.body = [n, o]) (hn : n.toNat = i.val + 1) (ho : o.toNat = operation)
    (ha : act plain i (received .control s) = accept t) (ht : t.memory.Clean) :
    exec c s = .next (answeredOk t) := by
  obtain ⟨taken, hp⟩ := h
  have clean : (received .control s).memory.Clean := (received_undisturbed .control taken.1).2
  have settled : (accept t).settled (received .control s) = accept t := settled_clean (accept t) clean ht
  rw [exec_of_request hc, performRequest_owner taken (.inr hp) (by rw [hb]; rfl), hp, hb,
    commandRow_act_station _ _ _ hn ho, ha, settled, ite_self]
  rfl

end Commands

@[simp] theorem answeredOk_work (t : State) (i : StationIx) : (answeredOk t).work i = t.work i := rfl
@[simp] theorem answeredOk_cfg (t : State) (i : StationIx) : (answeredOk t).cfg i = t.cfg i := rfl
@[simp] theorem answeredOk_drive (t : State) : (answeredOk t).drive = t.drive := rfl
@[simp] theorem answeredOk_sampler (t : State) : (answeredOk t).sampler = t.sampler := rfl

theorem answeredOk_answered (t : State) : Answered 0x11 .ok (answeredOk t) := rfl

/-! ### The frame of a station command -/

section Frame

variable {s t u : State}

theorem onlyTable_trans (h : OnlyTable s t) (k : OnlyTable t u) : OnlyTable s u := by
  unfold OnlyTable at *
  rw [k, h]

theorem onlyTable_of_tableChange (h : TableChange s t) : OnlyTable s t := by
  unfold OnlyTable
  rw [h.only]

theorem onlyTable_received (s : State) : OnlyTable s (received .control s) := rfl

theorem onlyTable_setCfg (s : State) (i : StationIx) (c : StationConfig) : OnlyTable s (s.setCfg i c) := rfl

theorem onlyTable_answeredOk (t : State) : OnlyTable t (answeredOk t) := rfl

/-- A station's record is its configuration and its working part. -/
theorem station_ext {j : StationIx} (hc : t.cfg j = s.cfg j) (hw : t.work j = s.work j) :
    t.station j = s.station j :=
  congrArg₂ Station.mk hc hw

end Frame

/-! ### What a change of state leaves alone (R35) -/

section EnterState

variable (s : State) (i : StationIx) (new : StationState) (l : List WorkField) (f : StationWork → StationWork)

theorem tellSampler_work (old : StationState) (j : StationIx) : (tellSampler plain i old new s).work j = s.work j := by
  rw [tellSampler_samplerOnly i old new s]
  rfl

theorem tellSampler_drive (old : StationState) : (tellSampler plain i old new s).drive = s.drive := by
  rw [tellSampler_samplerOnly i old new s]

theorem enterState_work_same : (enterState plain i new l f s).work i = { f (s.work i) with state := new } := by
  rw [enterState_plain, tellSampler_work, raise_work, setWork_work_same]

theorem enterState_work_other {j : StationIx} (h : j ≠ i) : (enterState plain i new l f s).work j = s.work j := by
  rw [enterState_plain, tellSampler_work, raise_work, setWork_work_other _ _ h]

theorem enterState_drive : (enterState plain i new l f s).drive = s.drive := by
  rw [enterState_plain, tellSampler_drive, raise_drive, setWork_drive]

end EnterState

/-! ### What the sampler keeps when a station goes (R35, R64) -/

theorem selectSweep_demand (s : State) : (selectSweep s).sampler.demand = s.sampler.demand := by
  have swept := sweepSearch_keeps (sampleable s) s.settings.bank.referenceInterval s.sampler.sweepList.length s.sampler
  have kept := congrArg Sampler.demand swept
  unfold selectSweep
  dsimp only
  split
  · exact kept
  · split <;> exact kept

/-- A selection takes demand entries away and adds none (R65). -/
theorem select_demand_subset (s : State) : (select s).sampler.demand ⊆ s.sampler.demand := by
  unfold select
  split
  · split
    case h_1 i rest found =>
      have tail : rest ⊆ s.sampler.demand.dropWhile (fun i => !sampleable s i) := by
        rw [found]
        exact List.subset_cons_self i rest
      exact List.Subset.trans tail (List.dropWhile_sublist _).subset
    case h_2 =>
      dsimp only
      split
      · exact List.nil_subset _
      · rw [selectSweep_demand]
        exact List.nil_subset _
  · exact List.Subset.refl _

theorem abandonFor_demand_subset (i : StationIx) (s : State) :
    (abandonFor plain i s).sampler.demand ⊆ s.sampler.demand := by
  unfold abandonFor
  split
  · split
    · exact select_demand_subset (discardSample s)
    · exact List.Subset.refl _
  · exact List.Subset.refl _

theorem abandonFor_sweepEntries (i : StationIx) (s : State) :
    (abandonFor plain i s).sampler.sweepEntries = s.sampler.sweepEntries := by
  unfold abandonFor
  split
  · split
    · exact (select_reselected (discardSample s)).sweepEntries
    · rfl
  · rfl

/-- A station that becomes UNUSED has no demand entry left (R64). -/
theorem enterState_unused_demand (i : StationIx) (l : List WorkField) (f : StationWork → StationWork) (s : State) :
    i ∉ (enterState plain i .unused l f s).sampler.demand := by
  intro h
  have left := abandonFor_demand_subset i _ h
  simp [removeDemand, dropClaim] at left

/-- The sweep list keeps a station that becomes UNUSED (R59). -/
theorem enterState_unused_sweepList (i : StationIx) (l : List WorkField) (f : StationWork → StationWork) (s : State) :
    (enterState plain i .unused l f s).sampler.sweepList = s.sampler.sweepList :=
  congrArg (fun e : SweepEntries => stationsUpToEnd e.toList) (abandonFor_sweepEntries i _)

theorem sampleable_of_inactive {s : State} {i : StationIx} (h : (s.work i).state.active = false) :
    sampleable s i = false := by
  simp [sampleable, h]

/-! ### RELEASE (R22) -/

/-- An ISOLATED station's target is 0 where targets are clamped (R10). -/
theorem target_zero_of_isolated {s : State} {i : StationIx} (hs : TargetsClamped s) (h : (s.work i).state = .isolated) :
    (s.work i).target = 0 := by
  rw [hs i, h]
  rfl

theorem exec_release_isolated {r : Request} {s : State} {i : StationIx} {n : Byte} (h : TakenControl r s)
    (hb : r.body = [n, 4]) (hn : n.toNat = i.val + 1) (hs : (s.work i).state = .isolated) :
    exec (.release r) s = .next (answeredOk (enterState plain i .standby [] id (received .control s))) :=
  exec_command_accepted (c := .release r) rfl h hb hn rfl (if_pos hs)
    ((PartChange.ofTable (enterState_table ..)).clean (received_undisturbed .control h.1.1).2)

/-- Settles O28: the change of state leaves the rest of the table and the drive alone, and passes no move request. -/
theorem releaseStandsBy : Obligations.ReleaseStandsBy := by
  refine ⟨refusesOtherNumbers_of_row fun _ => rfl, fun r s i n h hb hn => ⟨fun hs => ?isolated, fun hs => ?other⟩⟩
  case isolated =>
    have table := enterState_table (received .control s) i .standby [] id
    refine ⟨_, exec_release_isolated h hb hn hs, answeredOk_answered _, ?frame, ?drive, ?work, ?target, ?cfg, ?others⟩
    case frame =>
      exact onlyTable_trans (onlyTable_received s)
        (onlyTable_trans (onlyTable_of_tableChange table) (onlyTable_answeredOk _))
    case drive => exact enterState_drive ..
    case work => exact enterState_work_same ..
    case target =>
      intro clamped
      rw [answeredOk_work, enterState_work_same]
      exact target_zero_of_isolated clamped hs
    case cfg => exact table.cfg
    case others => exact fun j hj => enterState_work_other _ i _ _ _ hj
  case other =>
    exact exec_command_refused (c := .release r) (st := .wrongState) rfl h hb
      ((commandRow_act_station _ _ _ hn rfl).trans (if_neg hs))

/-! ### UNASSIGN (R24) -/

/-- UNASSIGN on a part whose words are all good: the defaults, and the change to UNUSED behind them. -/
theorem unassign_plain (i : StationIx) {s : State} (h : Undisturbed s) :
    unassign plain i s = enterState plain i .unused (workFields.filter (· ≠ .position))
      (fun w => { StationWork.cold with position := w.position }) (s.setCfg i StationConfig.default) := by
  have good : Undisturbed (s.setCfg i StationConfig.default) := h
  rw [unassign, rewriteWords_clean _ good]

theorem unassign_table (i : StationIx) {s : State} (h : Undisturbed s) :
    TableChange (s.setCfg i StationConfig.default) (unassign plain i s) := by
  rw [unassign_plain i h]
  exact enterState_table ..

theorem unassign_work_same (i : StationIx) {s : State} (h : Undisturbed s) :
    (unassign plain i s).work i = { StationWork.cold with position := (s.work i).position } := by
  rw [unassign_plain i h, enterState_work_same, setCfg_work]
  rfl

theorem unassign_station_other {i j : StationIx} {s : State} (h : Undisturbed s) (hj : j ≠ i) :
    (unassign plain i s).station j = s.station j := by
  refine station_ext ?_ ?_
  · rw [(unassign_table i h).cfg, setCfg_cfg_other _ _ hj]
  · rw [unassign_plain i h, enterState_work_other _ _ _ _ _ hj, setCfg_work]

theorem exec_unassign_standby {r : Request} {s : State} {i : StationIx} {n : Byte} (h : TakenControl r s)
    (hb : r.body = [n, 6]) (hn : n.toNat = i.val + 1) (hs : (s.work i).state = .standby) :
    exec (.unassign r) s = .next (answeredOk (unassign plain i (received .control s))) :=
  have good : Undisturbed (received .control s) := received_undisturbed .control h.1.1
  exec_command_accepted (c := .unassign r) rfl h hb hn rfl (if_pos hs)
    ((PartChange.ofTable (unassign_table i good)).clean good.2)

/-- Settles O30: the configuration goes back to its default, and the change to UNUSED takes the working part with it. -/
theorem unassignReturnsDefaults : Obligations.UnassignReturnsDefaults := by
  refine ⟨refusesOtherNumbers_of_row fun _ => rfl, fun r s i n h hb hn => ⟨fun hs => ?standby, fun hs => ?other⟩⟩
  case standby =>
    have good : Undisturbed (received .control s) := received_undisturbed .control h.1.1
    have table := unassign_table i good
    have work := unassign_work_same i good
    refine ⟨_, exec_unassign_standby h hb hn hs, answeredOk_answered _, ?frame, ?drive, ?cfg, work, ?demand, ?sweep, ?idle,
      fun j hj => unassign_station_other good hj⟩
    case frame =>
      exact onlyTable_trans (onlyTable_received s) (onlyTable_trans (onlyTable_setCfg _ i _)
        (onlyTable_trans (onlyTable_of_tableChange table) (onlyTable_answeredOk _)))
    case drive =>
      rw [answeredOk_drive, unassign_plain i good]
      exact enterState_drive ..
    case cfg => rw [answeredOk_cfg, table.cfg, setCfg_cfg_same]
    case demand =>
      rw [answeredOk_sampler, unassign_plain i good]
      exact enterState_unused_demand i _ _ _
    case sweep =>
      rw [answeredOk_sampler, unassign_plain i good]
      exact enterState_unused_sweepList ..
    case idle =>
      refine sampleable_of_inactive ?_
      rw [answeredOk_work, work]
      rfl
  case other =>
    exact exec_command_refused (c := .unassign r) (st := .wrongState) rfl h hb
      ((commandRow_act_station _ _ _ hn rfl).trans (if_neg hs))

end Sys2Proof.Proofs
end

section
/-! The flow of a window (R47, R48): the root built bit by bit is the integer square root, the bounds of the steps in
between, the record below and above the zero cut, and the statement. -/

namespace Sys2Proof.Proofs

open Sys2Proof Sys2Proof.Machine

/-! ### The root (R47, step 4) -/

/-- With `k` bits still to decide, the root lies in `r`, …, `r + 2 ^ k - 1`; each bit halves that range. -/
theorem rootFrom_eq_sqrt {n k r : Nat} (lower : r * r ≤ n) (upper : n < (r + 2 ^ k) * (r + 2 ^ k)) :
    rootFrom n k r = Nat.sqrt n := by
  induction k generalizing r with
  | zero => exact Nat.eq_sqrt.mpr ⟨lower, upper⟩
  | succ k ih =>
    rw [rootFrom]
    split
    case isTrue fits =>
      refine ih fits ?_
      rwa [Nat.add_assoc, ← Nat.two_mul, ← Nat.pow_succ']
    case isFalse exceeds => exact ih lower (Nat.not_le.mp exceeds)

theorem squareRoot_eq_sqrt {n : Nat} (h : n < 2 ^ 64) : squareRoot n = Nat.sqrt n :=
  rootFrom_eq_sqrt (Nat.zero_le n) (by simpa using h)

/-! ### The steps before the root (R47, steps 2 and 3) -/

theorem relativeDensity_bounds {c : Nat} (h : c ≤ 1000) : 554 ≤ relativeDensity c ∧ relativeDensity c ≤ 1000 := by
  unfold relativeDensity
  omega

theorem scaledPressure_le {dp rd : Nat} (hdp : dp ≤ 4000) (hrd : 554 ≤ rd) : dp * 1000000 / rd ≤ 7220216 :=
  calc dp * 1000000 / rd ≤ 4000 * 1000000 / 554 :=
        Nat.div_le_div (Nat.mul_le_mul_right _ hdp) hrd (by decide)
    _ = 7220216 := by norm_num

/-! ### The record (R47, step 1; R48) -/

theorem rawFlow_of_below_cut {k c dp : Nat} (h : dp < 20) : rawFlow k c dp = 0 := if_pos h

theorem rawFlow_of_cut_le {k c dp : Nat} (h : 20 ≤ dp) (hs2 : dp * 1000000 / relativeDensity c < 2 ^ 64) :
    rawFlow k c dp = k * Nat.sqrt (dp * 1000000 / relativeDensity c) / 10000 := by
  rw [rawFlow, if_neg (Nat.not_lt.mpr h), squareRoot_eq_sqrt hs2]

theorem windowRecord_of_rawFlow {k c now q : Nat} {w : FlowWindow} (h : rawFlow k c (w.sum / w.count) = q) :
    windowRecord k c w now = .valid (min q 9999) (w.sum / w.count) w.saturated (9999 < q) now := by
  subst h
  rfl

/-- Settles O58: the root that R47 names is `Nat.sqrt` of the scaled pressure, which the bound of step 3 keeps far below
2 to the power 64; the flow and its clamp are R48's. -/
theorem flowOfWindow : Obligations.FlowOfWindow := by
  intro k c now w hc _ hdp dp rd s2
  obtain ⟨hlow, hhigh⟩ : 554 ≤ rd ∧ rd ≤ 1000 := relativeDensity_bounds hc
  have hs2 : s2 ≤ 7220216 := scaledPressure_le hdp hlow
  refine ⟨hlow, hhigh, hs2, fun below => ?cut,
    fun above => ⟨Nat.sqrt s2, Nat.sqrt_le s2, Nat.lt_succ_sqrt s2, ?bound, ?flow⟩⟩
  case cut => exact windowRecord_of_rawFlow (rawFlow_of_below_cut below)
  case bound => exact Nat.le_of_lt_succ (Nat.sqrt_lt.mpr (Nat.lt_of_le_of_lt hs2 (by norm_num)))
  case flow => exact windowRecord_of_rawFlow (rawFlow_of_cut_le above (Nat.lt_of_le_of_lt hs2 (by norm_num)))

end Sys2Proof.Proofs
end

section
/-! PEEK EVENTS and TAKE EVENTS (R199): the refusal of a request that is no query on the monitor port (R213), the count, what
each owner answers, and the statement. -/

namespace Sys2Proof.Proofs

open Sys2Proof Sys2Proof.Machine Sys2Proof.Laws

/-! ### A request that is no query on the monitor port (R213) -/

theorem answerTo_readOnly {row : RequestRow} {r : Request} (hp : r.port = .monitor) (hq : row.query = false) (s : State) :
    answerTo row r s = refuse .readOnly s := by
  simp [answerTo, hp, hq]

theorem performRequest_readOnly {row : RequestRow} {r : Request} {s : State} (h : Taken r s) (hp : r.port = .monitor)
    (hq : row.query = false) : performRequest row r s = .next (replied r.port row.kind [0x17] none s) := by
  rw [performRequest, perform_powered _ h.1.1, takeRequest_taken row h, answerTo_readOnly hp hq, refuse,
    holdAnswer_received]
  rfl

/-! ### The count (R199) -/

section Count

variable {n : Byte}

theorem countOk_iff {k : Nat} : countOk k = true ↔ 1 ≤ k ∧ k ≤ 8 := by
  simp [countOk]

theorem not_countOk_iff {k : Nat} : ¬ countOk k = true ↔ k = 0 ∨ 8 < k := by
  rw [countOk_iff]
  omega

theorem peekRow_act_counted (p : Port) (s : State) (h : countOk n.toNat = true) :
    peekRow.act plain p [n] s =
      acceptWith (eventContents (s.events.queue.take n.toNat) s.events.queue.length s.events.overflow) s := if_pos h

theorem peekRow_act_refused (p : Port) (s : State) (h : ¬ countOk n.toNat = true) :
    peekRow.act plain p [n] s = refuse .badValue s := if_neg h

theorem takeEventsRow_act_counted (p : Port) (s : State) (h : countOk n.toNat = true) :
    takeEventsRow.act plain p [n] s = takeEvents n.toNat s := if_pos h

theorem takeEventsRow_act_refused (p : Port) (s : State) (h : ¬ countOk n.toNat = true) :
    takeEventsRow.act plain p [n] s = refuse .badValue s := if_neg h

end Count

/-! ### Taking the oldest records (R199) -/

/-- The records leave the queue and the frame leaves its port in HUNT: neither looks at what the other changes. -/
theorem takeEvents_received (k : Nat) (p : Port) (s : State) :
    takeEvents k (received p s) =
      acceptWith (eventContents (s.events.queue.take k) (s.events.queue.length - min k s.events.queue.length)
          s.events.overflow)
        (received p { s with events := { s.events with queue := s.events.queue.drop k } }) := by
  have left : (s.events.queue.drop k).length = s.events.queue.length - min k s.events.queue.length := by
    rw [List.length_drop]
    omega
  rw [← left]
  cases p <;> rfl

/-- The removal touches no word of the memory, so that nothing follows the reply (R187). -/
theorem takeEvents_settled (k : Nat) {s : State} (h : s.memory.Clean) : (takeEvents k s).settled s = takeEvents k s :=
  settled_clean (takeEvents k s) h h

theorem exec_takeEvents_counted {r : Request} {s : State} {n : Byte} (h : Taken r s) (hp : r.port = .control)
    (hb : r.body = [n]) (hn : countOk n.toNat = true) :
    exec (.takeEvents r) s = .next (replied r.port 0x19
      (0x00 :: eventContents (s.events.queue.take n.toNat)
        (s.events.queue.length - min n.toNat s.events.queue.length) s.events.overflow) none
      { s with events := { s.events with queue := s.events.queue.drop n.toNat } }) := by
  have clean : (received r.port s).memory.Clean := (received_undisturbed r.port h.1).2
  rw [exec_of_request (c := .takeEvents r) rfl, performRequest_owner h (.inr hp) (by rw [hb]; rfl), hb,
    takeEventsRow_act_counted _ _ hn, takeEvents_settled _ clean, ite_self, takeEvents_received, acceptWith,
    holdAnswer_received]
  rfl

theorem exec_takeEvents_refused {r : Request} {s : State} {n : Byte} (h : Taken r s) (hp : r.port = .control)
    (hb : r.body = [n]) (hn : ¬ countOk n.toNat = true) :
    exec (.takeEvents r) s = .next (replied r.port 0x19 [0x12] none s) := by
  rw [exec_of_request (c := .takeEvents r) rfl]
  exact performRequest_unchanged (row := takeEventsRow) h (.inr hp) (by rw [hb]; rfl)
    (by rw [hb, takeEventsRow_act_refused _ _ hn]; rfl)

/-! ### Peeking at them (R199) -/

theorem exec_peekEvents_counted {r : Request} {s : State} {n : Byte} (h : Taken r s) (hb : r.body = [n])
    (hn : countOk n.toNat = true) :
    exec (.peekEvents r) s = .next (replied r.port 0x08
      (0x00 :: eventContents (s.events.queue.take n.toNat) s.events.queue.length s.events.overflow) none s) := by
  have events : (received r.port s).events = s.events := by cases r.port <;> rfl
  rw [exec_of_request (c := .peekEvents r) rfl]
  exact performRequest_unchanged (row := peekRow) h (.inl rfl) (by rw [hb]; rfl)
    (by rw [hb, peekRow_act_counted _ _ hn, events]; rfl)

theorem exec_peekEvents_refused {r : Request} {s : State} {n : Byte} (h : Taken r s) (hb : r.body = [n])
    (hn : ¬ countOk n.toNat = true) :
    exec (.peekEvents r) s = .next (replied r.port 0x08 [0x12] none s) := by
  rw [exec_of_request (c := .peekEvents r) rfl]
  exact performRequest_unchanged (row := peekRow) h (.inl rfl) (by rw [hb]; rfl)
    (by rw [hb, peekRow_act_refused _ _ hn]; rfl)

/-- Settles O24: the count decides between the owner's answer and BAD_VALUE, and the port stands in front of both. -/
theorem eventsPeekedAndTaken : Obligations.EventsPeekedAndTaken := by
  intro r s n h hb reply
  refine ⟨fun counted => ?counted, fun other => ?other, fun hp => ?monitor⟩
  case counted =>
    have hn : countOk n.toNat = true := countOk_iff.mpr counted
    exact ⟨exec_peekEvents_counted h hb hn, fun hp => exec_takeEvents_counted h hp hb hn⟩
  case other =>
    have hn : ¬ countOk n.toNat = true := not_countOk_iff.mpr other
    exact ⟨exec_peekEvents_refused h hb hn, fun hp => exec_takeEvents_refused h hp hb hn⟩
  case monitor =>
    rw [exec_of_request (c := .takeEvents r) rfl]
    exact performRequest_readOnly h hp rfl

end Sys2Proof.Proofs
end

section
/-! What the table, the sampler and the drive make among themselves, as a closure: a property of states that stands behind
each of a few elementary changes stands behind every piece of their work whose words are all good. The elementary changes
carry with them what their place in the work has tested, so that the invariants of Safety are such properties. -/

namespace Sys2Proof.Proofs

open Sys2Proof Sys2Proof.Machine Sys2Proof.Laws

/-! ### Elementary changes of the sampler -/

/-- A sample is in flight exactly in PURGING and READING (R54). -/
def FlightPhased (k : Sampler) : Prop := k.inFlight.isSome = true ↔ k.phase = .purging ∨ k.phase = .reading

/-- The bounds of the demand queue and the two counts (R53, R62). -/
def SamplerCounts (k : Sampler) : Prop :=
  k.demand.length ≤ Config.demandCapacity ∧ k.demand.Nodup ∧ k.passCount ≤ 15 ∧ k.faultCount ≤ 3

/-- The station the sample in flight is for. -/
def sampledStation (k : Sampler) : Option StationIx := k.inFlight.bind fun m => m.source.station?

/-- An elementary change of the sampler: it keeps the agreement of phase and sample, the phase STOPPED, the bounds and the
condition, and a new entry, sample or claim is for an active station. -/
structure SamplerStep (s : State) (k : Sampler) : Prop where
  phased : FlightPhased s.sampler → FlightPhased k ∧ (k.phase = .stopped ↔ s.sampler.phase = .stopped)
  counts : SamplerCounts s.sampler → SamplerCounts k
  demand : ∀ j ∈ k.demand, j ∈ s.sampler.demand ∨ (s.work j).state.active = true
  flight : ∀ j, sampledStation k = some j → sampledStation s.sampler = some j ∨ (s.work j).state.active = true
  claim17 : ∀ j, k.claim17 = some j → s.sampler.claim17 = some j ∨ (s.work j).state.active = true
  claim18 : ∀ j, k.claim18 = some j → s.sampler.claim18 = some j ∨ (s.work j).state.active = true
  fault : k.analyserFault = s.sampler.analyserFault

section SamplerSteps

variable {s : State} {k k' : Sampler}

theorem SamplerStep.refl (s : State) : SamplerStep s s.sampler :=
  ⟨fun h => ⟨h, Iff.rfl⟩, id, fun _ => .inl, fun _ => .inl, fun _ => .inl, fun _ => .inl, rfl⟩

theorem SamplerStep.trans (h : SamplerStep s k) (h' : SamplerStep { s with sampler := k } k') : SamplerStep s k' where
  phased hp := ⟨(h'.phased (h.phased hp).1).1, (h'.phased (h.phased hp).1).2.trans (h.phased hp).2⟩
  counts hc := h'.counts (h.counts hc)
  demand j hj := (h'.demand j hj).elim (h.demand j) .inr
  flight j hj := (h'.flight j hj).elim (h.flight j) .inr
  claim17 j hj := (h'.claim17 j hj).elim (h.claim17 j) .inr
  claim18 j hj := (h'.claim18 j hj).elim (h.claim18 j) .inr
  fault := h'.fault.trans h.fault

/-- A change of the fields that no invariant of the sampler speaks of, or that only empties lists. -/
theorem SamplerStep.of_kept (hphase : k.phase = s.sampler.phase) (hflight : k.inFlight = s.sampler.inFlight)
    (hdemand : k.demand.Sublist s.sampler.demand) (h17 : k.claim17 = none ∨ k.claim17 = s.sampler.claim17)
    (h18 : k.claim18 = none ∨ k.claim18 = s.sampler.claim18)
    (hpass : s.sampler.passCount ≤ 15 → k.passCount ≤ 15) (hfault : s.sampler.faultCount ≤ 3 → k.faultCount ≤ 3)
    (hcondition : k.analyserFault = s.sampler.analyserFault) : SamplerStep s k where
  phased hp := by
    unfold FlightPhased at *
    rw [hphase, hflight]
    exact ⟨hp, Iff.rfl⟩
  counts := fun ⟨hl, hn, hp, hf⟩ => ⟨hdemand.length_le.trans hl, hdemand.nodup hn, hpass hp, hfault hf⟩
  demand j hj := .inl (hdemand.subset hj)
  flight j hj := .inl (by rwa [sampledStation, hflight] at hj)
  claim17 j hj := by rcases h17 with h | h <;> simp_all
  claim18 j hj := by rcases h18 with h | h <;> simp_all
  fault := hcondition

theorem active_of_sampleable {i : StationIx} (h : sampleable s i = true) : (s.work i).state.active = true := by
  simp only [sampleable, Bool.and_eq_true] at h
  exact h.1

/-- A free sampler begins a sample of an active station, or of the reference (R67). -/
theorem beginSample_step {source : SampleSource} {line : Line} (hidle : s.sampler.phase = .idle)
    (hs : ∀ j, source.station? = some j → (s.work j).state.active = true) :
    SamplerStep s (beginSample source line s).sampler where
  phased _ := by simp [beginSample, FlightPhased, hidle]
  counts h := h
  demand _ := .inl
  flight j hj := .inr (hs j (by simpa [beginSample, sampledStation] using hj))
  claim17 _ := .inl
  claim18 _ := .inl
  fault := rfl

theorem advance_passCount (n : Nat) (h : k.passCount ≤ 15) : (k.advance n).passCount ≤ 15 := by
  unfold Sampler.advance Sampler.wrap
  split
  · exact h
  · dsimp only
    split
    · omega
    · exact h

theorem sweepSearch_passCount (ok : StationIx → Bool) (n fuel : Nat) (k : Sampler) (h : k.passCount ≤ 15) :
    (sweepSearch ok n fuel k).2.passCount ≤ 15 := by
  induction fuel generalizing k with
  | zero => exact h
  | succ fuel ih =>
    simp only [sweepSearch]
    split
    · exact h
    · split
      · exact advance_passCount n h
      · exact ih _ (advance_passCount n h)

theorem sweepSearch_step (ok : StationIx → Bool) (n fuel : Nat) (s : State) :
    SamplerStep s (sweepSearch ok n fuel s.sampler).2 := by
  have kept := sweepSearch_keeps ok n fuel s.sampler
  refine .of_kept ?_ ?_ ?_ (.inr ?_) (.inr ?_) (sweepSearch_passCount ok n fuel s.sampler) ?_ ?_ <;> rw [kept]
  exact id

theorem selectSweep_step (hidle : s.sampler.phase = .idle) : SamplerStep s (selectSweep s).sampler := by
  have swept := sweepSearch_step (sampleable s) s.settings.bank.referenceInterval s.sampler.sweepList.length s
  have still : (sweepSearch (sampleable s) s.settings.bank.referenceInterval s.sampler.sweepList.length
      s.sampler).2.phase = .idle := by rw [sweepSearch_keeps]; exact hidle
  unfold selectSweep
  dsimp only
  split
  case h_1 i found =>
    refine swept.trans (beginSample_step still fun j hj => ?_)
    obtain rfl : i = j := by simpa [SampleSource.station?] using hj
    exact active_of_sampleable (s := s) (sweepSearch_found found).1
  case h_2 =>
    split
    · exact swept.trans (beginSample_step still fun j hj => by simp [SampleSource.station?] at hj)
    · exact swept

/-- A selection begins a sample of an active station, or of the reference, and else only takes entries away (R65). -/
theorem select_step (s : State) : SamplerStep s (select s).sampler := by
  unfold select
  split
  case isFalse => exact .refl s
  case isTrue free =>
    have hidle : s.sampler.phase = .idle := by simp only [Bool.and_eq_true, decide_eq_true_eq] at free; exact free.1
    have taken (l : List StationIx) (hl : l.Sublist s.sampler.demand) :
        SamplerStep s { s.sampler with demand := l } := .of_kept rfl rfl hl (.inr rfl) (.inr rfl) id id rfl
    split
    case h_1 i rest found =>
      have sub : (i :: rest).Sublist s.sampler.demand := found ▸ List.dropWhile_sublist _
      have first : sampleable s i = true := by
        have := List.head?_dropWhile_not (fun i => !sampleable s i) s.sampler.demand
        rw [found] at this
        simpa using this
      refine (taken rest ((List.sublist_cons_self i rest).trans sub)).trans (beginSample_step hidle fun j hj => ?_)
      obtain rfl : i = j := by simpa [SampleSource.station?] using hj
      exact active_of_sampleable first
    case h_2 =>
      dsimp only
      split
      · exact (taken [] (List.nil_sublist _)).trans
          (beginSample_step hidle fun j hj => by simp [SampleSource.station?] at hj)
      · exact (taken [] (List.nil_sublist _)).trans (selectSweep_step hidle)

/-- The sample in flight is discarded where there is one, or where the sampler is not STOPPED (R79). -/
theorem discardSample_step (h : s.sampler.inFlight.isSome = true ∨ s.sampler.phase ≠ .stopped) :
    SamplerStep s (discardSample s).sampler where
  phased hp := by
    refine ⟨by simp [discardSample, FlightPhased], ?_⟩
    have : s.sampler.phase ≠ .stopped := by
      rcases h with h | h
      · rcases hp.1 h with e | e <;> simp [e]
      · exact h
    simp [discardSample, this]
  counts h := h
  demand _ := .inl
  flight j hj := by simp [discardSample, sampledStation] at hj
  claim17 _ := .inl
  claim18 _ := .inl
  fault := rfl

theorem abandonFor_step (i : StationIx) (s : State) : SamplerStep s (abandonFor plain i s).sampler := by
  unfold abandonFor
  split
  case h_1 m hm =>
    split
    · exact (discardSample_step (.inl (by simp [hm]))).trans (select_step (discardSample s))
    · exact .refl s
  case h_2 => exact .refl s

theorem dropClaim_step (i : StationIx) (s : State) : SamplerStep s (dropClaim i s).sampler := by
  refine .of_kept rfl rfl (List.Sublist.refl _) ?_ ?_ id id rfl <;> dsimp only [dropClaim] <;> split <;> simp

theorem removeDemand_step (i : StationIx) (s : State) : SamplerStep s (removeDemand i s).sampler :=
  .of_kept rfl rfl List.filter_sublist (.inr rfl) (.inr rfl) id id rfl

theorem addDemand_step {i : StationIx} (hi : (s.work i).state.active = true) :
    SamplerStep s (addDemand plain i s).sampler := by
  unfold addDemand
  split
  case isTrue => exact .refl s
  case isFalse new =>
    split
    case isFalse => exact .refl s
    case isTrue room =>
      have joined : SamplerStep s { s.sampler with demand := s.sampler.demand ++ [i] } :=
        { phased := fun hp => ⟨hp, Iff.rfl⟩
          counts := fun ⟨_, hn, hp, hf⟩ => ⟨by simpa using room, by
            rw [List.nodup_append]
            exact ⟨hn, List.nodup_singleton i, fun a ha b hb => by
              obtain rfl := List.mem_singleton.1 hb
              rintro rfl
              exact new ha⟩, hp, hf⟩
          demand := fun j hj => by
            rcases List.mem_append.1 hj with hj | hj
            · exact .inl hj
            · exact .inr (List.mem_singleton.1 hj ▸ hi)
          flight := fun _ => .inl
          claim17 := fun _ => .inl
          claim18 := fun _ => .inl
          fault := rfl }
      exact joined.trans (select_step { s with sampler := { s.sampler with demand := s.sampler.demand ++ [i] } })

/-- What the sampler does at a change of state is made of such changes (R35). -/
theorem tellSampler_step (i : StationIx) (old new : StationState) (s : State) :
    SamplerStep s (tellSampler plain i old new s).sampler := by
  have gone (t : State) : SamplerStep t (abandonFor plain i (releaseClaim plain i t)).sampler :=
    (dropClaim_step i t).trans (abandonFor_step i (dropClaim i t))
  have out : SamplerStep s (abandonFor plain i (releaseClaim plain i (removeDemand i s))).sampler :=
    (removeDemand_step i s).trans (gone (removeDemand i s))
  cases new <;> simp only [tellSampler]
  case unused => exact out
  case isolated => exact out
  case standby => split; exacts [gone s, .refl s]
  case faulted => split; exacts [gone s, .refl s]
  case producing => split; exacts [.refl s, select_step s]
  case quarantined => split; exacts [.refl s, select_step s]

/-- A free sampler that selects begins a sample or stays free (R65, R66). -/
theorem select_phase (h : s.sampler.phase = .idle) : (select s).sampler.phase = .idle ∨ (select s).sampler.phase = .purging := by
  have swept (t : State) (ht : t.sampler.phase = .idle) :
      (selectSweep t).sampler.phase = .idle ∨ (selectSweep t).sampler.phase = .purging := by
    have kept := congrArg Sampler.phase
      (sweepSearch_keeps (sampleable t) t.settings.bank.referenceInterval t.sampler.sweepList.length t.sampler)
    unfold selectSweep
    dsimp only
    split
    · exact .inr rfl
    · split
      · exact .inr rfl
      · exact .inl (kept.trans ht)
  unfold select
  split
  · split
    · exact .inr rfl
    · dsimp only
      split
      · exact .inr rfl
      · exact swept _ h
  · exact .inl h

/-- What no change of the table moves: the marks, the lists of the configuration, the fault count, the parked result and the
last reference; and it pauses no sampler. -/
structure SamplerStands (k k' : Sampler) : Prop where
  marks : k'.marks = k.marks
  entries : k'.sweepEntries = k.sweepEntries
  classes : k'.classes = k.classes
  faultCount : k'.faultCount = k.faultCount
  condition : k'.analyserFault = k.analyserFault
  parked : k'.parked = k.parked
  reference : k'.lastReference = k.lastReference
  paused : k'.phase = .paused → k.phase = .paused

theorem SamplerStands.refl (k : Sampler) : SamplerStands k k := ⟨rfl, rfl, rfl, rfl, rfl, rfl, rfl, id⟩

theorem SamplerStands.trans {k₁ k₂ k₃ : Sampler} (h : SamplerStands k₁ k₂) (h' : SamplerStands k₂ k₃) : SamplerStands k₁ k₃ :=
  ⟨h'.marks.trans h.marks, h'.entries.trans h.entries, h'.classes.trans h.classes, h'.faultCount.trans h.faultCount,
    h'.condition.trans h.condition, h'.parked.trans h.parked, h'.reference.trans h.reference, fun p => h.paused (h'.paused p)⟩

theorem select_stands (s : State) : SamplerStands s.sampler (select s).sampler := by
  have moved := select_reselected s
  refine ⟨moved.marks, moved.sweepEntries, moved.classes, moved.faultCount, moved.analyserFault, moved.parked,
    moved.lastReference, fun p => ?_⟩
  by_contra other
  by_cases free : s.sampler.phase = .idle
  · rcases select_phase free with e | e <;> rw [e] at p <;> cases p
  · exact other (by rwa [select_of_not_free (.inl free)] at p)

theorem abandonFor_stands (i : StationIx) (s : State) : SamplerStands s.sampler (abandonFor plain i s).sampler := by
  unfold abandonFor
  have discarded : SamplerStands s.sampler (discardSample s).sampler :=
    ⟨rfl, rfl, rfl, rfl, rfl, rfl, rfl, fun p => nomatch p⟩
  split
  · split
    · exact discarded.trans (select_stands (discardSample s))
    · exact .refl _
  · exact .refl _

theorem dropClaim_stands (i : StationIx) (s : State) : SamplerStands s.sampler (dropClaim i s).sampler :=
  ⟨rfl, rfl, rfl, rfl, rfl, rfl, rfl, id⟩

theorem addDemand_stands (i : StationIx) (s : State) : SamplerStands s.sampler (addDemand plain i s).sampler := by
  unfold addDemand
  have joined : SamplerStands s.sampler { s.sampler with demand := s.sampler.demand ++ [i] } :=
    ⟨rfl, rfl, rfl, rfl, rfl, rfl, rfl, id⟩
  split
  · exact .refl _
  · split
    · exact joined.trans (select_stands { s with sampler := { s.sampler with demand := s.sampler.demand ++ [i] } })
    · exact .refl _

theorem tellSampler_stands (i : StationIx) (old new : StationState) (s : State) :
    SamplerStands s.sampler (tellSampler plain i old new s).sampler := by
  have gone (t : State) : SamplerStands t.sampler (abandonFor plain i (releaseClaim plain i t)).sampler :=
    (dropClaim_stands i t).trans (abandonFor_stands i (dropClaim i t))
  have out : SamplerStands s.sampler (abandonFor plain i (releaseClaim plain i (removeDemand i s))).sampler :=
    SamplerStands.trans (k₂ := (removeDemand i s).sampler) ⟨rfl, rfl, rfl, rfl, rfl, rfl, rfl, id⟩ (gone (removeDemand i s))
  cases new <;> simp only [tellSampler]
  case unused => exact out
  case isolated => exact out
  case standby => split; exacts [gone s, .refl _]
  case faulted => split; exacts [gone s, .refl _]
  case producing => split; exacts [.refl _, select_stands s]
  case quarantined => split; exacts [.refl _, select_stands s]

end SamplerSteps

/-! ### Elementary changes of the drive -/

/-- No station stands twice in the drive, and at most four motions run (R121, R124). -/
def DriveListed (d : Drive) : Prop :=
  (d.motions.map Motion.station ++ d.queue.map QueuedMove.station).Nodup ∧ d.motions.length ≤ 4

/-- An elementary change of the drive: it keeps the form of the lists, and begins no motion in IDLE. -/
structure DriveStep (s : State) (d : Drive) : Prop where
  listed : DriveListed s.drive → s.settings.bank.slotCount ≤ 4 → DriveListed d
  idle : s.bank.mode = .idle → s.drive.motions = [] → d.motions = []

section DriveSteps

variable {s : State} {d d' : Drive}

theorem DriveStep.refl (s : State) : DriveStep s s.drive := ⟨fun h _ => h, fun _ h => h⟩

theorem DriveStep.trans (h : DriveStep s d) (h' : DriveStep { s with drive := d } d') : DriveStep s d' :=
  ⟨fun hl hn => h'.listed (h.listed hl hn) hn, fun hm he => h'.idle hm (h.idle hm he)⟩

/-- The stations of the motions and of the queue are among those before, in their order. -/
theorem DriveStep.of_sublist (hm : (d.motions.map Motion.station).Sublist (s.drive.motions.map Motion.station))
    (hq : (d.queue.map QueuedMove.station).Sublist (s.drive.queue.map QueuedMove.station)) : DriveStep s d where
  listed := fun ⟨hn, hl⟩ _ => ⟨(hm.append hq).nodup hn, by simpa using hm.length_le.trans (by simpa using hl)⟩
  idle _ he := by
    rw [he] at hm
    simpa using hm

theorem setMotion_step (m : Motion) (s : State) : DriveStep s (setMotion m s).drive := by
  have same : (setMotion m s).drive.motions.map Motion.station = s.drive.motions.map Motion.station := by
    simp only [setMotion, List.map_map]
    refine List.map_congr_left fun x _ => ?_
    simp only [Function.comp_apply]
    split <;> simp_all
  exact .of_sublist (by rw [same]) (List.Sublist.refl _)

theorem dropMotion_step (i : StationIx) (s : State) : DriveStep s (dropMotion i s).drive :=
  .of_sublist (List.filter_sublist.map _) (List.Sublist.refl _)

theorem dropMoves_step (i : StationIx) (s : State) : DriveStep s (dropMoves i s).drive :=
  .of_sublist (List.filter_sublist.map _) (List.filter_sublist.map _)

theorem replaceQueued_step (i : StationIx) (target : Nat) (s : State) : DriveStep s (replaceQueued i target s).drive := by
  have same : (replaceQueued i target s).drive.queue.map QueuedMove.station = s.drive.queue.map QueuedMove.station := by
    simp only [replaceQueued, List.map_map]
    refine List.map_congr_left fun x _ => ?_
    simp only [Function.comp_apply]
    split <;> rfl
  exact .of_sublist (List.Sublist.refl _) (by rw [same])

theorem popQueue_step {e : QueuedMove} {rest : List QueuedMove} (h : s.drive.queue = e :: rest) :
    DriveStep s { s.drive with queue := rest } :=
  .of_sublist (List.Sublist.refl _) (by rw [h]; exact List.sublist_cons_self ..)

/-- A grant moves the head of the queue to the motions (R128). -/
theorem grant_step {e : QueuedMove} {rest : List QueuedMove} {m : Motion} {n : Option Nat} (h : s.drive.queue = e :: rest)
    (ho : grantOpen s = true) (hm : m.station = e.station) :
    DriveStep s { queue := rest, motions := s.drive.motions ++ [m], lastMotorStart := n } := by
  simp only [grantOpen, Bool.and_eq_true, decide_eq_true_eq] at ho
  obtain ⟨⟨hmode, hslot⟩, -⟩ := ho
  refine ⟨fun ⟨hn, _⟩ h4 => ⟨?_, by simp; omega⟩, fun hidle => absurd hidle (by simpa using hmode)⟩
  rw [h] at hn
  simpa [hm] using hn

theorem motionOf_none_iff {i : StationIx} : motionOf s i = none ↔ i ∉ s.drive.motions.map Motion.station := by
  simp [motionOf, List.find?_eq_none]

theorem not_queued_iff {i : StationIx} : queued s i = false ↔ i ∉ s.drive.queue.map QueuedMove.station := by
  simp [queued]

/-- A move joins the queue for a station with none in hand (R124). -/
theorem joinQueue_step {i : StationIx} {target : Nat} (hq : queued s i = false) (hm : motionOf s i = none) :
    DriveStep s { s.drive with queue := s.drive.queue ++ [⟨i, target⟩] } := by
  refine ⟨fun ⟨hn, hl⟩ _ => ⟨?_, hl⟩, fun _ h => h⟩
  rw [List.map_append, ← List.append_assoc, List.nodup_append]
  refine ⟨hn, List.nodup_singleton _, fun a ha b hb => ?_⟩
  obtain rfl := List.mem_singleton.1 hb
  rintro rfl
  rcases List.mem_append.1 ha with ha | ha
  · exact motionOf_none_iff.1 hm ha
  · exact not_queued_iff.1 hq ha

end DriveSteps

/-! ### Elementary changes of the station table -/

/-- A rewrite of a working part that keeps state, target and damaged mark, and a recovery run in its range. -/
structure SoftWork (s : State) (i : StationIx) (w : StationWork) : Prop where
  state : w.state = (s.work i).state
  target : w.target = (s.work i).target
  damaged : w.damaged = (s.work i).damaged
  run : w.recoveryRun = (s.work i).recoveryRun ∨ w.recoveryRun = 0 ∨
    (s.work i).state = .quarantined ∧ w.recoveryRun ≤ (s.cfg i).recoveryCount

/-- What a change to the state `new` finds and writes: an assigned station, the damaged mark kept, no damaged one out of
FAULTED, and a recovery run of 0. -/
structure Enters (s : State) (i : StationIx) (new : StationState) (w : StationWork) : Prop where
  assigned : (s.work i).state.assigned = true
  entered : new.assigned = true
  damaged : w.damaged = (s.work i).damaged
  marked : (s.work i).damaged = true → ∀ c, (s.work i).state ≠ .faulted c
  run : w.recoveryRun = 0 ∨ w.recoveryRun = (s.work i).recoveryRun ∧ (s.work i).state ≠ .quarantined

/-- The target change at the beginning of `applyTarget`, in front of its move request (R11). -/
def aimed (i : StationIx) (requested : Nat) (s : State) : State :=
  if clampTarget (s.cfg i) (s.work i).state requested = (s.work i).target then s
  else s.setWork i { s.work i with
    target := clampTarget (s.cfg i) (s.work i).state requested, fresh := false, settleExpiry := none }

/-- A property that stands behind the elementary changes of the table, the sampler and the drive. -/
structure TableSteady (P : State → Prop) : Prop where
  raise : ∀ {s} k n e v, P s → P (raise k n e v s)
  soft : ∀ {s} i w, SoftWork s i w → P s → P (s.setWork i w)
  aim : ∀ {s} i requested, P s → P (aimed i requested s)
  enter : ∀ {s} i new l f, Enters s i new (f (s.work i)) → new.active = false →
    ((f (s.work i)).target = 0 ∨ (f (s.work i)).target = (s.work i).target ∧ (s.work i).state.active = false) →
    P s → P (enterState plain i new l f s)
  enterAim : ∀ {s} i new l f requested, Enters s i new (f (s.work i)) → P s →
    P (aimed i requested (enterState plain i new l f s))
  standDown : ∀ {s} i, P s → P (standDown i plain s)
  selection : ∀ {s} k, SamplerStep s k → SamplerStands s.sampler k → P s → P { s with sampler := k }
  drive : ∀ {s} d, DriveStep s d → P s → P { s with drive := d }

section Table

variable {P : State → Prop} {s : State} {i : StationIx}

/-! #### The sampler's part -/

theorem TableSteady.ofSampler {t : State} (hP : TableSteady P) (only : SamplerOnly s t) (step : SamplerStep s t.sampler)
    (stands : SamplerStands s.sampler t.sampler) (h : P s) : P t := by
  rw [show t = { s with sampler := t.sampler } from only]
  exact hP.selection _ step stands h

theorem TableSteady.select (hP : TableSteady P) (h : P s) : P (select s) :=
  hP.ofSampler (select_samplerOnly s) (select_step s) (select_stands s) h

theorem TableSteady.addDemand (hP : TableSteady P) (hi : (s.work i).state.active = true) (h : P s) :
    P (addDemand plain i s) :=
  hP.ofSampler (addDemand_samplerOnly i s) (addDemand_step hi) (addDemand_stands i s) h

theorem TableSteady.dropClaim (hP : TableSteady P) (h : P s) : P (dropClaim i s) :=
  hP.selection _ (dropClaim_step i s) (dropClaim_stands i s) h

theorem TableSteady.abandonFor (hP : TableSteady P) (h : P s) : P (abandonFor plain i s) :=
  hP.ofSampler (abandonFor_samplerOnly i s) (abandonFor_step i s) (abandonFor_stands i s) h

/-! #### Reports to the table -/

theorem TableSteady.settleReached (hP : TableSteady P) (h : P s) : P (settleReached plain i s) := by
  have removed : P (s.setWork i { s.work i with settleExpiry := none }) := hP.soft i _ ⟨rfl, rfl, rfl, .inl rfl⟩ h
  rw [settleReached_plain]
  split
  case isTrue ready => exact hP.addDemand (active_of_sampleable ready) removed
  case isFalse => exact removed

theorem TableSteady.reportCompleted (hP : TableSteady P) (target : Nat) (h : P s) :
    P (reportCompleted plain i target s) := by
  have done : P (s.setWork i (completedWork s i)) := hP.soft i _ ⟨rfl, rfl, rfl, .inl rfl⟩ h
  rw [reportCompleted_plain]
  split
  · split
    · exact hP.settleReached done
    · exact done
  · exact h

theorem assigned_of_active {st : StationState} (h : st.active = true) : st.assigned = true := by
  cases st <;> simp_all [StationState.active, StationState.assigned]

theorem not_faulted_of_active {st : StationState} (h : st.active = true) (c : FaultCause) : st ≠ .faulted c := by
  rintro rfl
  simp [StationState.active] at h

/-- A fault is taken only in STANDBY, PRODUCING and QUARANTINED (R25). -/
theorem faultTaken_states {c : FaultCause} {st : StationState} {m : MotionStatus} (h : faultTaken c st m = true) :
    st = .standby ∨ st.active = true := by
  cases c <;> simp [faultTaken] at h <;> tauto

theorem enters_of_faultTaken {c c' : FaultCause} {m : MotionStatus} {w : StationWork}
    (h : faultTaken c (s.work i).state m = true) (hd : w.damaged = (s.work i).damaged) (hr : w.recoveryRun = 0) :
    Enters s i (.faulted c') w where
  assigned := by
    rcases faultTaken_states h with e | e
    · rw [e]; rfl
    · exact assigned_of_active e
  entered := rfl
  damaged := hd
  marked _ := by
    rcases faultTaken_states h with e | e
    · simp [e]
    · exact not_faulted_of_active e
  run := .inl hr

theorem TableSteady.haltFault (hP : TableSteady P) {c : FaultCause} {m : MotionStatus}
    (ht : faultTaken c (s.work i).state m = true) (h : P s) : P (haltFault plain i c s) := by
  rw [Machine.haltFault, withdraw_plain]
  exact hP.drive _ (dropMoves_step i _) (hP.enter i _ _ _ (enters_of_faultTaken ht rfl rfl) rfl (.inl rfl) h)

theorem TableSteady.haltReport (hP : TableSteady P) (c : FaultCause) (h : P s) : P (haltReport plain i c s) := by
  rw [haltReport_plain]
  split
  case isTrue ht => exact hP.haltFault ht h
  case isFalse => exact h

/-! #### Grants and moves -/

theorem TableSteady.grantLoop (hP : TableSteady P) (fuel : Nat) (h : P s) : P (grantLoop plain fuel s) := by
  induction fuel generalizing s with
  | zero => exact h
  | succ fuel ih =>
    rw [grantLoop_plain]
    split
    case h_1 => exact h
    case h_2 e rest hq =>
      split
      case isFalse => exact h
      case isTrue ho =>
        refine ih ?_
        have popped : P { s with drive := { s.drive with queue := rest } } := hP.drive _ (popQueue_step hq) h
        rw [beginMotion_plain]
        split
        · exact hP.haltReport _ (hP.raise _ _ _ _ popped)
        · split
          · exact hP.reportCompleted _ popped
          · split
            · exact hP.drive (s := s) _ (grant_step hq ho rfl) h
            · exact hP.drive (s := s) _ (grant_step hq ho rfl) h

theorem TableSteady.grantTest (hP : TableSteady P) (h : P s) : P (grantTest plain s) := hP.grantLoop _ h

theorem TableSteady.setMotion (hP : TableSteady P) (m : Motion) (h : P s) : P (setMotion m s) :=
  hP.drive _ (setMotion_step m s) h

theorem TableSteady.dropMotion (hP : TableSteady P) (h : P s) : P (dropMotion i s) := hP.drive _ (dropMotion_step i s) h

theorem TableSteady.completeMotion (hP : TableSteady P) (target : Nat) (h : P s) : P (completeMotion plain i target s) :=
  hP.reportCompleted target (hP.dropMotion h)

theorem TableSteady.retarget (hP : TableSteady P) (m : Motion) (target : Nat) (h : P s) : P (retarget plain m target s) := by
  rw [retarget_plain]
  split
  · exact h
  · split
    · exact hP.setMotion _ h
    · split
      · exact hP.setMotion _ h
      · split
        · exact hP.completeMotion _ h
        · split
          · exact hP.setMotion _ h
          · split <;> exact hP.setMotion _ h
      · split
        · exact hP.completeMotion _ h
        · split <;> exact hP.setMotion _ h

theorem TableSteady.queueMove (hP : TableSteady P) (target : Nat) (hq : queued s i = false) (hm : motionOf s i = none)
    (h : P s) : P (queueMove plain i target s) :=
  hP.soft i _ ⟨rfl, rfl, rfl, .inl rfl⟩ (hP.drive _ (joinQueue_step hq hm) h)

theorem TableSteady.takeMove (hP : TableSteady P) (target : Nat) (h : P s) : P (takeMove plain i target s) := by
  rw [takeMove_plain]
  split
  case isTrue => exact hP.drive _ (replaceQueued_step i target s) h
  case isFalse hq =>
    split
    case h_1 m _ => exact hP.retarget m target h
    case h_2 hm =>
      split
      · exact hP.reportCompleted _ h
      · exact hP.queueMove _ (Bool.eq_false_iff.2 hq) hm h

theorem TableSteady.moveRequest (hP : TableSteady P) (target : Nat) (h : P s) : P (moveRequest plain i target s) :=
  hP.grantTest (hP.takeMove target h)

/-- A target change that is made in front of its move request. -/
theorem TableSteady.applyTarget_of_aimed (hP : TableSteady P) {requested : Nat} (h : P (aimed i requested s)) :
    P (applyTarget plain i requested s) := by
  rw [applyTarget_plain]
  unfold aimed at h
  split
  case isTrue same => rwa [if_pos same] at h
  case isFalse other => exact hP.moveRequest _ (by rwa [if_neg other] at h)

theorem TableSteady.applyTarget (hP : TableSteady P) (requested : Nat) (h : P s) : P (applyTarget plain i requested s) :=
  hP.applyTarget_of_aimed (hP.aim i requested h)

theorem TableSteady.enterApply (hP : TableSteady P) {new : StationState} {l : List WorkField}
    {f : StationWork → StationWork} (requested : Nat) (he : Enters s i new (f (s.work i))) (h : P s) :
    P (Machine.applyTarget plain i requested (enterState plain i new l f s)) :=
  hP.applyTarget_of_aimed (hP.enterAim i new l f requested he h)

/-! #### Faults -/

theorem enterState_cfg (i j : StationIx) (new : StationState) (l : List WorkField) (f : StationWork → StationWork)
    (s : State) : (enterState plain i new l f s).cfg j = s.cfg j :=
  (enterState_table s i new l f).cfg j

theorem TableSteady.driveFault (hP : TableSteady P) {c : FaultCause} {m : MotionStatus}
    (ht : faultTaken c (s.work i).state m = true) (h : P s) : P (driveFault plain i c s) := by
  have he : Enters s i (.faulted c) (s.work i).faulted := enters_of_faultTaken ht rfl rfl
  unfold Machine.driveFault
  dsimp only
  split
  case isTrue zero =>
    rw [enterState_work_same] at zero
    exact hP.moveRequest 0 (hP.enter i _ _ _ he rfl (.inl zero) h)
  case isFalse => exact hP.enterApply 0 he h

theorem TableSteady.faultReport (hP : TableSteady P) (c : FaultCause) (h : P s) : P (faultReport plain i c s) := by
  rw [faultReport_plain]
  split
  case isFalse => exact h
  case isTrue ht =>
    cases c
    case flowLine => exact hP.driveFault ht h
    case sampleLine => exact hP.driveFault ht h
    case record => exact hP.driveFault ht h
    all_goals exact hP.grantTest (hP.haltFault ht h)

/-! #### Endings and timers -/

theorem TableSteady.stallMotion (hP : TableSteady P) (h : P s) : P (stallMotion plain i s) :=
  hP.grantTest (hP.faultReport _ (hP.raise _ _ _ _ (hP.dropMotion h)))

theorem TableSteady.timeoutMotion (hP : TableSteady P) (h : P s) : P (timeoutMotion plain i s) :=
  hP.grantTest (hP.faultReport _ (hP.raise _ _ _ _ (hP.dropMotion h)))

theorem TableSteady.missMotion (hP : TableSteady P) (m : Motion) (h : P s) : P (missMotion plain m s) :=
  hP.grantTest (hP.reportCompleted _ (hP.raise _ _ _ _ (hP.dropMotion h)))

theorem TableSteady.completed (hP : TableSteady P) (target : Nat) (h : P s) :
    P (Machine.grantTest plain (Machine.completeMotion plain i target s)) := hP.grantTest (hP.completeMotion target h)

theorem TableSteady.stallTest (hP : TableSteady P) (m : Motion) (d : Direction) (r : Option Nat) (n : Nat) (h : P s) :
    P (stallTest plain m d r n s) := by
  rw [stallTest_plain]
  dsimp only
  split
  · exact hP.stallMotion h
  · exact hP.setMotion _ h

theorem TableSteady.seePosition (hP : TableSteady P) (m : Motion) (h : P s) : P (seePosition plain m s) := by
  rw [seePosition_plain]
  split
  · split
    · exact hP.stallTest _ _ _ _ h
    · exact h
  · split
    · split
      · exact hP.completed _ h
      · split
        · exact hP.setMotion _ h
        · exact hP.stallTest _ _ _ _ h
    · split
      · exact hP.completed _ h
      · exact hP.setMotion _ h
    · exact hP.setMotion _ h

theorem TableSteady.nextInchPeriod (hP : TableSteady P) (m : Motion) (n : Nat) (h : P s) :
    P (nextInchPeriod plain m n s) := by
  rw [nextInchPeriod_plain]
  split
  · exact hP.missMotion m h
  · split
    · exact hP.completed _ h
    · exact hP.setMotion _ h

theorem TableSteady.endReversal (hP : TableSteady P) (m : Motion) (h : P s) : P (endReversal plain m s) := by
  rw [endReversal_plain]
  split
  · exact hP.setMotion _ h
  · split
    · exact hP.completed _ h
    · split <;> exact hP.setMotion _ h

/-- A run of changes that each keep a property keeps it. -/
theorem foldl_keeps {α : Type} {f : State → α → State} (hf : ∀ t a, P t → P (f t a)) (l : List α) (h : P s) :
    P (l.foldl f s) := by
  induction l generalizing s with
  | nil => exact h
  | cons a rest ih => exact ih (hf s a h)

theorem forStations_keeps {f : StationIx → State → State} (hf : ∀ i t, P t → P (f i t)) (h : P s) :
    P (forStations f s) := foldl_keeps (fun t i => hf i t) allStations h

theorem TableSteady.timeoutDue (hP : TableSteady P) (h : P s) : P (timeoutDue plain s) :=
  foldl_keeps (fun _ _ ht => hP.timeoutMotion ht) _ h

/-! #### Orders -/

theorem motionStatus_none_iff : motionStatus s i = .none ↔ motionOf s i = none ∧ queued s i = false := by
  unfold motionStatus
  split
  case h_1 m hm => cases m.phase <;> simp [hm, MotionPhase.status]
  case h_2 hm => cases hq : queued s i <;> simp [hm]

theorem TableSteady.runOrder (hP : TableSteady P) (h : P s) : P (runOrder plain s) := by
  refine hP.grantTest (forStations_keeps (fun i t ht => ?_) h)
  rw [runStation_plain]
  split
  case isFalse => exact ht
  case isTrue wants =>
    simp only [runOrderWants, Bool.and_eq_true, decide_eq_true_eq] at wants
    obtain ⟨hm, hq⟩ := motionStatus_none_iff.1 wants.1.1.1
    exact hP.queueMove _ hq hm ht

theorem queueMove_queued (i j : StationIx) (target : Nat) (s : State) :
    queued (queueMove plain i target s) j = (queued s j || decide (i = j)) := by
  simp [queued, queueMove]

/-- Different stations with no move in hand each get one (R143, step 3). -/
theorem TableSteady.queueMoves (hP : TableSteady P) (target : Nat) (l : List StationIx) (hn : l.Nodup)
    (hl : ∀ i ∈ l, motionOf s i = none ∧ queued s i = false) (h : P s) :
    P (l.foldl (fun t i => Machine.queueMove plain i target t) s) := by
  induction l generalizing s with
  | nil => exact h
  | cons i rest ih =>
    obtain ⟨hi, hrest⟩ := List.nodup_cons.1 hn
    obtain ⟨hm, hq⟩ := hl i List.mem_cons_self
    refine ih hrest (fun j hj => ?_) (hP.queueMove target hq hm h)
    obtain ⟨hmj, hqj⟩ := hl j (List.mem_cons_of_mem _ hj)
    refine ⟨hmj, ?_⟩
    rw [queueMove_queued, hqj]
    have : i ≠ j := by rintro rfl; exact hi hj
    simp [this]

theorem addDemand_drive (i : StationIx) (s : State) : (addDemand plain i s).drive = s.drive := by
  rw [addDemand_samplerOnly i s]

theorem settleReached_drive (i : StationIx) (s : State) : (settleReached plain i s).drive = s.drive := by
  rw [settleReached_plain]
  split
  · rw [addDemand_drive]; rfl
  · rfl

theorem reportCompleted_drive (i : StationIx) (target : Nat) (s : State) :
    (reportCompleted plain i target s).drive = s.drive := by
  rw [reportCompleted_plain]
  split
  · split
    · rw [settleReached_drive]; rfl
    · rfl
  · rfl

/-- A retarget leaves the queue as it is. -/
theorem retarget_queue (m : Motion) (target : Nat) (s : State) :
    (retarget plain m target s).drive.queue = s.drive.queue := by
  have complete (t : State) : (completeMotion plain m.station target t).drive.queue = t.drive.queue := by
    rw [completeMotion, reportCompleted_drive]; rfl
  rw [retarget_plain]
  split
  · rfl
  · split
    · rfl
    · split
      · rfl
      · split
        · exact complete s
        · split
          · rfl
          · split <;> rfl
      · split
        · exact complete s
        · split <;> rfl

theorem closing_queue (s : State) : (closing s).drive.queue = [] := by
  have step (l : List Motion) (t : State) (h : t.drive.queue = []) :
      (l.foldl (fun t m => retarget plain m 0 t) t).drive.queue = [] := by
    induction l generalizing t with
    | nil => exact h
    | cons m rest ih => exact ih _ ((retarget_queue m 0 t).trans h)
  exact step _ _ rfl

theorem closeOrder_perm (s : State) :
    (closeOrder s).Perm (allStations.filter fun i => tripOrderExamines s i && Config.deadband < positionOr0 s i) :=
  List.perm_insertionSort _ _

theorem closeOrder_nodup (s : State) : (closeOrder s).Nodup :=
  (closeOrder_perm s).nodup_iff.2 ((List.nodup_finRange 16).filter _)

theorem mem_closeOrder {s : State} {i : StationIx} :
    i ∈ closeOrder s ↔ tripOrderExamines s i = true ∧ Config.deadband < positionOr0 s i := by
  rw [(closeOrder_perm s).mem_iff]
  simp [allStations]

theorem TableSteady.tripOrder (hP : TableSteady P) (changed : List StationIx) (h : P s) : P (tripOrder plain changed s) := by
  have flushed : P (flushed s) := hP.drive _ (.of_sublist (List.Sublist.refl _) (List.nil_sublist _)) h
  have closing : P (closing s) := foldl_keeps (fun _ m => hP.retarget m 0) _ flushed
  rw [tripOrder_plain]
  refine hP.grantTest (foldl_keeps (fun _ i => hP.reportCompleted (i := i) 0) _ ?_)
  refine hP.queueMoves 0 _ (closeOrder_nodup _) (fun i hi => ?_) closing
  obtain ⟨examined, -⟩ := mem_closeOrder.1 hi
  simp only [tripOrderExamines, Bool.and_eq_true, Option.isNone_iff_eq_none] at examined
  exact ⟨examined.1.1, by simp [queued, closing_queue]⟩

/-! #### The classifier -/

/-- What a change out of a state that is assigned and not FAULTED finds. -/
theorem enters_of_sound_state {new : StationState} {w : StationWork} (ha : (s.work i).state.assigned = true)
    (hn : new.assigned = true) (hf : ∀ c, (s.work i).state ≠ .faulted c) (hd : w.damaged = (s.work i).damaged)
    (hr : w.recoveryRun = 0) : Enters s i new w := ⟨ha, hn, hd, fun _ => hf, .inl hr⟩

theorem enters_of_active {new : StationState} {w : StationWork} (h : (s.work i).state.active = true)
    (hn : new.assigned = true) (hd : w.damaged = (s.work i).damaged) (hr : w.recoveryRun = 0) : Enters s i new w :=
  enters_of_sound_state (assigned_of_active h) hn (not_faulted_of_active h) hd hr

theorem TableSteady.applyTransition (hP : TableSteady P) (a : Area) (h : P s) : P (applyTransition plain i a s) := by
  rw [applyTransition_plain]
  split
  case h_1 hs =>
    have active : (s.work i).state.active = true := by rw [hs]; rfl
    rw [classifyProducing_plain]
    split
    · split
      · exact hP.enterApply _ (enters_of_active active rfl rfl rfl) h
      · exact hP.enterApply _ (enters_of_active (s := Machine.raise .exhausted _ none _ s) active rfl rfl rfl)
          (hP.raise _ _ _ _ h)
    · exact h
  case h_2 hs =>
    have active : (s.work i).state.active = true := by rw [hs]; rfl
    rw [classifyQuarantined_plain]
    split
    · split
      case isTrue => exact hP.enterApply _ (enters_of_active active rfl rfl rfl) h
      case isFalse run => exact hP.soft i _ ⟨rfl, rfl, rfl, .inr (.inr ⟨hs, by simpa using Nat.le_of_lt (Nat.not_le.1 run)⟩)⟩ h
    · exact hP.soft i _ ⟨rfl, rfl, rfl, .inr (.inl rfl)⟩ h
  case h_3 => exact h

theorem TableSteady.storeResult (hP : TableSteady P) (r : StationResult) (h : P s) : P (storeResult plain r s) := by
  unfold Machine.storeResult
  dsimp only [putWork_plain]
  split
  · exact hP.raise _ _ _ _ (hP.soft _ _ ⟨rfl, rfl, rfl, .inl rfl⟩ h)
  · exact hP.soft _ _ ⟨rfl, rfl, rfl, .inl rfl⟩ h

/-! #### The trip, rounds and flow -/

theorem TableSteady.roundChange (hP : TableSteady P) (a : Adjustment) (h : P s) : P (roundChange a plain s) := by
  rw [roundChange_plain]
  split
  · exact hP.applyTarget _ h
  · exact h

theorem TableSteady.storeFlow (hP : TableSteady P) (r : WindowResult) (h : P s) : P (storeFlow plain i r s) := by
  cases r
  · exact hP.soft i _ ⟨rfl, rfl, rfl, .inl rfl⟩ h
  · exact hP.faultReport _ (hP.soft i _ ⟨rfl, rfl, rfl, .inl rfl⟩ h)

theorem TableSteady.lineEvent (hP : TableSteady P) (k : EventKind) (old : InputStatus) (new : InputEntry) (h : P s) :
    P (lineEvent k i old new s) := by
  unfold Machine.lineEvent
  split
  · exact h
  · split
    · split
      · exact h
      · exact hP.raise _ _ _ _ h
    · split
      · exact hP.raise _ _ _ _ h
      · exact h

theorem TableSteady.takePositions (hP : TableSteady P) (before : Vector InputEntry 35) (h : P s) :
    P (takePositions before plain s) := by
  unfold Machine.takePositions reportPositions storePositions lineEvents
  refine forStations_keeps (fun i t ht => ?report) ?stored
  case report =>
    split
    · exact hP.faultReport _ ht
    · exact ht
  case stored =>
    refine forStations_keeps (fun i t ht => hP.soft i _ ⟨rfl, rfl, rfl, .inl rfl⟩ ht) ?_
    refine forStations_keeps (fun i t => hP.lineEvent _ _ _) ?_
    exact forStations_keeps (fun i t => hP.lineEvent _ _ _) h

theorem TableSteady.seeMotion (hP : TableSteady P) (h : P s) : P (seeMotion i plain s) := by
  unfold Machine.seeMotion
  split
  · exact hP.seePosition _ h
  · exact h

/-! #### Station commands -/

theorem TableSteady.startStation (hP : TableSteady P) (hs : (s.work i).state = .standby) (h : P s) :
    P (startStation plain i s) :=
  hP.enterApply (s := s) _ (enters_of_sound_state (by rw [hs]; rfl) rfl (by simp [hs]) rfl rfl) h

theorem TableSteady.stopStation (hP : TableSteady P) (hs : (s.work i).state.active = true) (h : P s) :
    P (stopStation plain i s) := hP.enterApply _ (enters_of_active hs rfl rfl rfl) h

theorem TableSteady.isolateStation (hP : TableSteady P) (ha : (s.work i).state.assigned = true)
    (hd : (s.work i).damaged = false) (h : P s) : P (isolateStation plain i s) := by
  unfold Machine.isolateStation
  split
  · exact hP.applyTarget _ (hP.soft i _ ⟨rfl, rfl, rfl, .inr (.inl rfl)⟩ h)
  · exact hP.enterApply _ ⟨ha, rfl, rfl, fun hm => absurd hm (by simp [hd]), .inl rfl⟩ h

theorem TableSteady.releaseStation (hP : TableSteady P) (hs : (s.work i).state = .isolated) (h : P s) :
    P (enterState plain i .standby [] id s) :=
  hP.enter i _ _ _ ⟨by rw [hs]; rfl, rfl, rfl, fun _ => by simp [hs], .inr ⟨rfl, by simp [hs]⟩⟩ rfl
    (.inr ⟨rfl, by rw [hs]; rfl⟩) h

theorem TableSteady.clearFault (hP : TableSteady P) {c : FaultCause} (hs : (s.work i).state = .faulted c)
    (hd : (s.work i).damaged = false) (h : P s) : P (clearFault plain i s) :=
  hP.moveRequest 0 (hP.enter i _ _ _
    ⟨by rw [hs]; rfl, rfl, rfl, fun hm => absurd hm (by simp [hd]), .inr ⟨rfl, by simp [hs]⟩⟩ rfl (.inr ⟨rfl, by rw [hs]; rfl⟩) h)

theorem TableSteady.restartMarked (hP : TableSteady P) (h : P s) : P (restartMarked i plain s) := by
  unfold Machine.restartMarked
  dsimp only [plain_look]
  split
  case isTrue ready =>
    simp only [Bool.and_eq_true, decide_eq_true_eq] at ready
    exact hP.startStation ready.1 h
  case isFalse => exact h

end Table

end Sys2Proof.Proofs
end

section
/-! The same for the whole part: elementary changes of the other blocks, of the protected memory and of a damaged record; that
every reader keeps what they keep (R187, R189), so that checked work does; and rounds, holds, samples and changes of settings
behind such a reader. -/

namespace Sys2Proof.Proofs

open Sys2Proof Sys2Proof.Machine Sys2Proof.Laws

/-! ### Elementary changes of the memory -/

/-- No more than two wrong bits in a word. -/
def FewWrong (l : List (Nat × WordBits)) : Prop := ∀ e ∈ l, countBits e.2 ≤ 2

/-- The ranges of the pointer, the damage list and the counts (R185, R191). -/
def MemoryRanges (m : Memory) : Prop :=
  m.scrubPointer < 512 ∧ m.damageList.length ≤ Config.damageCapacity ∧ m.damageList.Nodup ∧ m.damageOverflow ≤ 255 ∧
    m.corrections ≤ 65535

/-- An elementary change of the memory: it keeps form and ranges, and where few bits are wrong it brings no wrong bit about. -/
structure MemoryStep (m m' : Memory) : Prop where
  wf : m.wf = true → m'.wf = true
  few : FewWrong m.wrongBits → FewWrong m'.wrongBits
  ranges : MemoryRanges m → MemoryRanges m'
  clears : m.wf = true → FewWrong m.wrongBits → ∀ w,
    wrongBitsIn m'.wrongBits w = wrongBitsIn m.wrongBits w ∨ wrongBitsIn m'.wrongBits w = 0

section MemorySteps

variable {m m' m'' : Memory} {w : Nat}

theorem MemoryStep.refl (m : Memory) : MemoryStep m m := ⟨id, id, id, fun _ _ _ => .inl rfl⟩

theorem MemoryStep.trans (h : MemoryStep m m') (h' : MemoryStep m' m'') : MemoryStep m m'' where
  wf := h'.wf ∘ h.wf
  few := h'.few ∘ h.few
  ranges := h'.ranges ∘ h.ranges
  clears hw hf v := (h'.clears (h.wf hw) (h.few hf) v).elim
    (fun e => (h.clears hw hf v).imp e.trans e.trans) .inr

/-- A change that leaves the wrong bits as they are. -/
theorem MemoryStep.of_marks (hm : m'.wrongBits = m.wrongBits) (hr : MemoryRanges m → MemoryRanges m') : MemoryStep m m' where
  wf h := by rw [wf_iff] at *; rwa [hm]
  few h := by rwa [hm]
  ranges := hr
  clears _ _ v := .inl (by rw [hm])

theorem rewrite_step (w : Nat) (m : Memory) : MemoryStep m (m.rewrite w) where
  wf := rewrite_wf w
  few h e he := by
    rcases mem_setWrongBits he with he | ⟨-, hne⟩
    · exact h e he
    · exact absurd rfl hne
  ranges := id
  clears h _ v := by
    by_cases hv : v = w
    · subst hv
      exact .inr (rewrite_good v h).1
    · exact .inl (rewrite_other m hv)

theorem rewrites_step (ws : List Nat) (m : Memory) : MemoryStep m (ws.foldl Memory.rewrite m) := by
  induction ws generalizing m with
  | nil => exact .refl m
  | cons w rest ih => exact (rewrite_step w m).trans (ih _)

theorem correct_step (w : Nat) (m : Memory) : MemoryStep m (m.correct w) :=
  .of_marks rfl fun ⟨hp, hl, hn, ho, _⟩ => ⟨hp, hl, hn, ho, Nat.min_le_right ..⟩

theorem list_step (w : Nat) (m : Memory) : MemoryStep m (m.list w) := by
  have marks : (m.list w).wrongBits = m.wrongBits := by
    unfold Memory.list
    split
    · rfl
    · split <;> rfl
  refine .of_marks marks fun ⟨hp, hl, hn, ho, hc⟩ => ?_
  unfold Memory.list
  split
  case isTrue => exact ⟨hp, hl, hn, ho, hc⟩
  case isFalse new =>
    split
    · refine ⟨hp, by simpa using ‹m.damageList.length < Config.damageCapacity›, ?_, ho, hc⟩
      exact List.nodup_append.2 ⟨hn, List.nodup_singleton w, fun a ha b hb => by
        obtain rfl := List.mem_singleton.1 hb
        rintro rfl
        exact new ha⟩
    · exact ⟨hp, hl, hn, Nat.min_le_right .., hc⟩

theorem mem_of_wrongBitsIn {l : List (Nat × WordBits)} (h : wrongBitsIn l w ≠ 0) : (w, wrongBitsIn l w) ∈ l := by
  unfold wrongBitsIn at *
  split
  case h_1 e he =>
    have hw : e.1 = w := by simpa using List.find?_some he
    rw [← hw]
    exact List.mem_of_find?_eq_some he
  case h_2 hn => simp [hn] at h

theorem countBits_zero : countBits 0 = 0 := by simp [countBits]

/-- Where few bits are wrong no word shows three of them. -/
theorem count_le_of_few {l : List (Nat × WordBits)} (h : FewWrong l) (w : Nat) : countBits (wrongBitsIn l w) ≤ 2 := by
  by_cases hw : wrongBitsIn l w = 0
  · rw [hw, countBits_zero]
    omega
  · exact h _ (mem_of_wrongBitsIn hw)

/-- The marks of a word with three wrong bits or more are set as it is read (log 6). -/
theorem mark_step (h : 3 ≤ countBits (wrongBitsIn m.wrongBits w)) (b : WordBits) :
    MemoryStep m { m with wrongBits := setWrongBits w b m.wrongBits } := by
  have many : ¬ FewWrong m.wrongBits := fun hf => by
    have := count_le_of_few hf w
    omega
  refine ⟨fun hw => ?_, fun hf => absurd hf many, id, fun _ hf => absurd hf many⟩
  have wrong : wrongBitsIn m.wrongBits w ≠ 0 := fun e => by rw [e, countBits_zero] at h; omega
  exact (wf_iff _).2 (canonical_setWrongBits (((wf_iff m).1 hw).2 _ (mem_of_wrongBitsIn wrong)).1 ((wf_iff m).1 hw))

/-- A change of the memory that a checked read may bring about: no good word becomes wrong, and what has been found stands. -/
structure ReadStep (m m' : Memory) : Prop extends MemoryStep m m' where
  good : m.wf = true → ∀ v, wrongBitsIn m.wrongBits v = 0 → wrongBitsIn m'.wrongBits v = 0
  listed : ∀ v ∈ m.damageList, v ∈ m'.damageList
  flag : m.damagedSetting = true → m'.damagedSetting = true
  pointer : m'.scrubPointer = m.scrubPointer

theorem ReadStep.trans (h : ReadStep m m') (h' : ReadStep m' m'') : ReadStep m m'' where
  toMemoryStep := h.toMemoryStep.trans h'.toMemoryStep
  good hw v hv := h'.good (h.wf hw) v (h.good hw v hv)
  listed v hv := h'.listed v (h.listed v hv)
  flag := h'.flag ∘ h.flag
  pointer := h'.pointer.trans h.pointer

theorem rewrite_read (w : Nat) (m : Memory) : ReadStep m (m.rewrite w) where
  toMemoryStep := rewrite_step w m
  good hw v hv := by
    by_cases e : v = w
    · subst e
      exact (rewrite_good v hw).1
    · rwa [rewrite_other m e]
  listed _ hv := hv
  flag h := h
  pointer := rfl

theorem rewrites_read (ws : List Nat) (m : Memory) : ReadStep m (ws.foldl Memory.rewrite m) := by
  induction ws generalizing m with
  | nil => exact ⟨.refl m, fun _ _ h => h, fun _ h => h, id, rfl⟩
  | cons w rest ih => exact (rewrite_read w m).trans (ih _)

theorem correct_read (w : Nat) (m : Memory) : ReadStep m (m.correct w) :=
  ⟨correct_step w m, fun _ _ h => h, fun _ h => h, id, rfl⟩

theorem list_fields (w : Nat) (m : Memory) : m.list w =
    { m with damageList := (m.list w).damageList, damageOverflow := (m.list w).damageOverflow } := by
  unfold Memory.list
  split
  · rfl
  · split <;> rfl

theorem list_listed (w : Nat) (m : Memory) : ∀ v ∈ m.damageList, v ∈ (m.list w).damageList := by
  intro v hv
  unfold Memory.list
  split
  · exact hv
  · split
    · exact List.mem_append_left _ hv
    · exact hv

theorem list_read (w : Nat) (m : Memory) : ReadStep m (m.list w) where
  toMemoryStep := list_step w m
  good _ v hv := by
    rw [list_fields]
    exact hv
  listed := list_listed w m
  flag h := by
    rw [list_fields]
    exact h
  pointer := by rw [list_fields]

/-- A damaged setting is remembered (R192). -/
theorem flag_read (m : Memory) : ReadStep m { m with damagedSetting := true } :=
  ⟨.of_marks rfl id, fun _ _ h => h, fun _ h => h, fun _ => rfl, rfl⟩

theorem mark_read (h : 3 ≤ countBits (wrongBitsIn m.wrongBits w)) (b : WordBits) :
    ReadStep m { m with wrongBits := setWrongBits w b m.wrongBits } where
  toMemoryStep := mark_step h b
  good _ v hv := by
    have other : v ≠ w := by
      rintro rfl
      rw [hv, countBits_zero] at h
      omega
    exact (wrongBitsIn_setWrongBits_other b _ other).trans hv
  listed _ hv := hv
  flag h := h
  pointer := rfl

end MemorySteps

/-! ### Elementary changes of the other blocks -/

/-- The event unit within its bounds, with its notices in their form (R196, R203). -/
def EventUnitSound (u : EventUnit) : Prop :=
  (u.queue.length ≤ Config.eventCapacity ∧ u.overflow ≤ 255 ∧ u.backlog.length ≤ Config.backlogCapacity ∧ u.drops ≤ 255) ∧
    NoticeList u.notices

/-- An elementary change of the trip unit: the latch and the link TRIP drive stand, the line is at most released, and a timer
is started outside TRIPPED alone. -/
structure TripStep (s : State) (u : TripUnit) : Prop where
  latch : u.latch = s.trip.latch
  linkDrive : u.linkDrive = s.trip.linkDrive
  line : u.line = s.trip.line ∨ u.line = .released
  timer : u.timer = s.trip.timer ∨ u.timer = none ∨ s.bank.mode ≠ .tripped

/-- The slot count is kept or in its range (R145). -/
def SlotsKept (s : State) (v : Settings) : Prop :=
  v.bank.slotCount = s.settings.bank.slotCount ∨ v.bank.slotCount ≤ 4

/-- A damaged record word of an assigned station, as far as the move request to 0 (R27). -/
def recordLost (i : StationIx) (k : Nat) (s : State) : State :=
  abandonFor plain i (dropClaim i (raise .state (stationNumber i) none
    (some (StationState.faulted .record).eventValue) (rewriteWords ((recordBase i + k) :: workWords i)
      ((s.setCfg i (copyConfigWord k StationConfig.default (s.cfg i))).setWork i
        { (s.work i).afterDamage with state := .faulted .record, damaged := true }))))

/-- A STATION SET on an assigned station, as far as its configuration and the fields of its working part (R15, R16). -/
def reconfigured (i : StationIx) (c : StationConfig) (full : Bool) (words : List Nat) (s : State) : State :=
  (rewriteWords (words.map (recordBase i + ·)) (s.setCfg i c)).setWork i { s.work i with
    recoveryRun := runUnder (s.work i).state c.recoveryCount (s.work i).recoveryRun
    damaged := (s.work i).damaged && !full }

/-- The pinned field stored (R17). -/
def pinStored (i : StationIx) (v : Bool) (s : State) : State :=
  rewriteWords [recordBase i + 3] (s.setCfg i { s.cfg i with pinned := v })

/-- Changed notification settings keep the bounds of the event unit and the form of its notices (R201 to R204). -/
theorem follow_sound (old new : NoticeSettings) {u : EventUnit} (h : EventUnitSound u) :
    EventUnitSound (u.follow old new) := by
  have joined (l : List Category) (f : Category → Bool) {v : EventUnit} (hv : EventUnitSound v) :
      EventUnitSound (l.foldl (fun v c => if f c then v.noticeDue new c else v) v) := by
    induction l generalizing v with
    | nil => exact hv
    | cons c rest ih =>
      refine ih ?_
      dsimp only
      split
      · exact ⟨hv.1, joinNotice_keeps c (noticeClass_le ..) hv.2⟩
      · exact hv
  have kept : EventUnitSound { u with
      blinkDrop := if new.mode ≠ old.mode || new.mask ≠ old.mask || (old.blink && !new.blink) then none else u.blinkDrop
      notices := if new.mode = .frames then withdrawNotices new.mask u.notices else [] } := by
    refine ⟨h.1, ?_⟩
    dsimp only
    split
    · exact withdrawNotices_keeps _ h.2
    · exact ⟨List.nodup_nil, by simp⟩
  unfold EventUnit.follow
  dsimp only
  split
  · exact joined _ _ kept
  · exact kept

/-- A property that stands behind the elementary changes that changed settings bring about in the other blocks. -/
structure WorkSteady (P : State → Prop) : Prop extends TableSteady P where
  unparked : ∀ {s}, P s → P { s with sampler := { s.sampler with parked := none } }
  measure : ∀ {s} v, P s → P { s with measure := v }
  balancer : ∀ {s} v, P s → P { s with balancer := v }
  link : ∀ {s} v, P s → P { s with link := v }
  roundTimer : ∀ {s} v, P s → P { s with bank := { s.bank with roundTimer := v } }
  trip : ∀ {s} u, TripStep s u → P s → P { s with trip := u }
  followed : ∀ {s} old new, P s → P { s with events := s.events.follow old new }

/-- A property that stands behind the elementary changes that checked reads and the handling of damage bring about. -/
structure ReadSteady (P : State → Prop) : Prop extends WorkSteady P where
  sampler : ∀ {s} k, SamplerStep s k → P s → P { s with sampler := k }
  selection := fun k step _ h => sampler k step h
  unparked := fun h => sampler _ (.of_kept rfl rfl (List.Sublist.refl _) (.inr rfl) (.inr rfl) id id rfl) h
  settings : ∀ {s} v, SlotsKept s v → P s → P { s with settings := v }
  reading : ∀ {s} m, ReadStep s.memory m → P s → P { s with memory := m }
  recordLost : ∀ {s} i k, (s.work i).state.assigned = true → P s → P (recordLost i k s)
  damageUnused : ∀ {s} i k, (s.work i).state.assigned = false → P s → P (damageUnused i k s)
  misread : ∀ {s} w, 3 ≤ countBits (wrongBitsIn s.memory.wrongBits w) → P s →
    P (misread w (wrongBitsIn s.memory.wrongBits w) s)

/-- A property that stands behind the elementary changes of every block. -/
structure PartSteady (P : State → Prop) : Prop extends ReadSteady P where
  elapsed : ∀ {s} v, P s → P { s with elapsed := v }
  conversionDue : ∀ {s} v, P s → P { s with conversionDue := v }
  restartDue : ∀ {s} v, P s → P { s with restartDue := v }
  pins : ∀ {s} v, P s → P { s with pins := v }
  control : ∀ {s} v, P s → P { s with control := v }
  monitor : ∀ {s} v, P s → P { s with monitor := v }
  condition : ∀ {s} v, P s → P { s with sampler := { s.sampler with analyserFault := v } }
  events : ∀ {s} u, (EventUnitSound s.events → EventUnitSound u) → P s → P { s with events := u }
  followed := fun old new h => events _ (follow_sound old new) h
  memory : ∀ {s} m, MemoryStep s.memory m → P s → P { s with memory := m }
  reading := fun m step h => memory m step.toMemoryStep h
  assign : ∀ {s} i c, (s.work i).state = .unused → c.complete = true → P s → P (assignStation plain i c s)
  reconfigure : ∀ {s} i c full words, (s.work i).state.assigned = true →
    ((s.cfg i).complete = true ∨ full = true → c.complete = true) → P s →
    P (aimed i (s.work i).target (reconfigured i c full words s))
  pinned : ∀ {s} i v, P s → P (aimed i (s.work i).target (pinStored i v s))
  unassign : ∀ {s} i, (s.work i).state = .standby → P s → P (unassign plain i s)

/-- A property that stands behind the elementary changes of the table, the sampler and the drive, and behind those of the other
blocks that no trip condition speaks of. -/
structure QuietSteady (P : State → Prop) : Prop extends TableSteady P where
  sampler : ∀ {s} k, SamplerStep s k → P s → P { s with sampler := k }
  selection := fun k step _ h => sampler k step h
  elapsed : ∀ {s} v, P s → P { s with elapsed := v }
  restartDue : ∀ {s} v, P s → P { s with restartDue := v }
  link : ∀ {s} v, P s → P { s with link := v }
  control : ∀ {s} v, P s → P { s with control := v }
  monitor : ∀ {s} v, P s → P { s with monitor := v }
  roundTimer : ∀ {s} v, P s → P { s with bank := { s.bank with roundTimer := v } }
  events : ∀ {s} u, (EventUnitSound s.events → EventUnitSound u) → P s → P { s with events := u }
  senseMark : ∀ {s} v, P s → P { s with pins := { s.pins with markActive := v } }
  releaseLine : ∀ {s}, P s → P { s with trip := { s.trip with line := .released } }
  rewriteWords : ∀ {s} ws, P s → P (rewriteWords ws s)
  marks : ∀ {s} m, m.wrongBits = s.memory.wrongBits → m.damagedSetting = s.memory.damagedSetting →
    (MemoryRanges s.memory → MemoryRanges m) → P s → P { s with memory := m }
  notice : ∀ {s} n, P s → P { s with settings := { s.settings with notice := n } }
  cast : ∀ {s} n, P s → P { s with settings := { s.settings with cast := n } }
  pinned : ∀ {s} i v, P s → P (aimed i (s.work i).target (pinStored i v s))
  unassign : ∀ {s} i, (s.work i).state = .standby → P s → P (unassign plain i s)

section Part

variable {P Q : State → Prop} {s : State} {i : StationIx}

theorem ReadSteady.rewriteWords (hP : ReadSteady P) (ws : List Nat) (h : P s) : P (rewriteWords ws s) :=
  hP.reading _ (rewrites_read ws s.memory) h

theorem PartSteady.quiet (hP : PartSteady P) : QuietSteady P where
  toTableSteady := hP.toTableSteady
  sampler k := hP.sampler k
  elapsed v := hP.elapsed v
  restartDue v := hP.restartDue v
  link v := hP.link v
  control v := hP.control v
  monitor v := hP.monitor v
  roundTimer v := hP.roundTimer v
  events u := hP.events u
  senseMark {s} v := hP.pins { s.pins with markActive := v }
  releaseLine {s} := hP.trip { s.trip with line := .released } ⟨rfl, rfl, .inr rfl, .inl rfl⟩
  rewriteWords ws := hP.rewriteWords ws
  marks m hm _ hr := hP.memory m (.of_marks hm hr)
  notice {s} n := hP.settings { s.settings with notice := n } (.inl rfl)
  cast {s} n := hP.settings { s.settings with cast := n } (.inl rfl)
  pinned i v := hP.pinned i v
  unassign i := hP.unassign i

theorem QuietSteady.setPort (hP : QuietSteady P) (p : Port) (v : PortState) (h : P s) : P (s.setPort p v) := by
  cases p
  · exact hP.control v h
  · exact hP.monitor v h

theorem PartSteady.setPort (hP : PartSteady P) (p : Port) (v : PortState) (h : P s) : P (s.setPort p v) :=
  hP.quiet.setPort p v h

theorem QuietSteady.passUntil (hP : QuietSteady P) (n : Nat) (h : P s) : P (passUntil n s) := hP.elapsed _ h

theorem PartSteady.passUntil (hP : PartSteady P) (n : Nat) (h : P s) : P (passUntil n s) := hP.elapsed _ h

theorem noteWrites_keeps (written : ∀ ws t, P t → P (Machine.rewriteWords ws t)) (work : Work) (before : State) (h : P s) :
    P (noteWrites work before s) := by
  unfold Machine.noteWrites
  split
  · exact h
  · exact written _ _ h

theorem ReadSteady.noteWrites (hP : ReadSteady P) (work : Work) (before : State) (h : P s) :
    P (noteWrites work before s) := noteWrites_keeps (fun ws _ => hP.rewriteWords ws) work before h

/-! ### Readers -/

/-- A reader keeps whatever the work it carries out keeps. -/
def ReaderKeeps (P : State → Prop) (run : Reader) : Prop :=
  ∀ need work s, (∀ t, P t → P (work plain t)) → P s → P (run need work s)

theorem behind_eq (check : (State → List Nat) → State → State) (need : State → List Nat) (work : Work) (s : State) :
    behind check need work s =
      noteWrites work (check (fun u => need u ++ usedWords work u) s)
        (work plain (check (fun u => need u ++ usedWords work u) s)) := rfl

/-- Work behind its checked reads leads from one property to another. -/
theorem behind_to {check : (State → List Nat) → State → State} (written : ∀ ws t, Q t → Q (Machine.rewriteWords ws t))
    (hc : ∀ need s, P s → P (check need s)) {work : Work} (hw : ∀ t, P t → Q (work plain t)) (need : State → List Nat)
    (h : P s) : Q (behind check need work s) := by
  rw [behind_eq]
  exact noteWrites_keeps written _ _ (hw _ (hc _ _ h))

theorem ReadSteady.behind (hP : ReadSteady P) {check : (State → List Nat) → State → State}
    (hc : ∀ need s, P s → P (check need s)) : ReaderKeeps P (behind check) :=
  fun need _ _ hw h => behind_to (fun ws _ => hP.rewriteWords ws) hc hw need h

theorem readInTurn_keeps {read : Nat → State → State} (hr : ∀ w t, P t → P (read w t)) (need : State → List Nat)
    (n : Nat) (done : List Nat) (h : P s) : P (readInTurn read need n done s) := by
  induction n generalizing done s with
  | zero => exact h
  | succ n ih =>
    simp only [readInTurn]
    split
    · exact ih _ (hr _ _ h)
    · exact h

section Run

variable {run : Reader}

theorem ReaderKeeps.nothing (hr : ReaderKeeps P run) (need : State → List Nat) (h : P s) : P (run need nothing s) :=
  hr _ _ _ (fun _ ht => ht) h

/-! ### Samples and parked items -/

theorem TableSteady.selectNow (hP : TableSteady P) (hr : ReaderKeeps P run) (h : P s) : P (selectNow run s) :=
  hr _ _ _ (fun _ => hP.select) h

theorem TableSteady.fileResult (hP : TableSteady P) (hr : ReaderKeeps P run) (r : StationResult) (h : P s) :
    P (fileResult run r s) := by
  unfold Machine.fileResult
  dsimp only
  split
  · exact hr _ _ _ (fun _ => hP.applyTransition _) (hr _ _ _ (fun _ => hP.storeResult r) (hr.nothing _ h))
  · exact hr.nothing _ h

/-- A change of the sampler's fields that no invariant speaks of. -/
theorem ReadSteady.samplerKept (hP : ReadSteady P) {k : Sampler} (hphase : k.phase = s.sampler.phase)
    (hflight : k.inFlight = s.sampler.inFlight) (hdemand : k.demand = s.sampler.demand)
    (h17 : k.claim17 = s.sampler.claim17) (h18 : k.claim18 = s.sampler.claim18)
    (hpass : s.sampler.passCount ≤ 15 → k.passCount ≤ 15) (hfault : s.sampler.faultCount ≤ 3 → k.faultCount ≤ 3)
    (hcondition : k.analyserFault = s.sampler.analyserFault) (h : P s) : P { s with sampler := k } :=
  hP.sampler k (.of_kept hphase hflight (by rw [hdemand]) (.inr h17) (.inr h18) hpass hfault hcondition) h

theorem QuietSteady.samplerKept (hP : QuietSteady P) {k : Sampler} (hphase : k.phase = s.sampler.phase)
    (hflight : k.inFlight = s.sampler.inFlight) (hdemand : k.demand = s.sampler.demand)
    (h17 : k.claim17 = s.sampler.claim17) (h18 : k.claim18 = s.sampler.claim18)
    (hpass : s.sampler.passCount ≤ 15 → k.passCount ≤ 15) (hfault : s.sampler.faultCount ≤ 3 → k.faultCount ≤ 3)
    (hcondition : k.analyserFault = s.sampler.analyserFault) (h : P s) : P { s with sampler := k } :=
  hP.sampler k (.of_kept hphase hflight (by rw [hdemand]) (.inr h17) (.inr h18) hpass hfault hcondition) h

theorem WorkSteady.handParkedResult (hP : WorkSteady P) (hr : ReaderKeeps P run) (h : P s) :
    P (handParkedResult run s) := by
  unfold Machine.handParkedResult
  split
  · exact hP.toTableSteady.selectNow hr (hP.fileResult hr _ (hP.unparked h))
  · exact h

theorem WorkSteady.handParkedFlow (hP : WorkSteady P) (h : P s) : P (handParkedFlow i plain s) := by
  unfold Machine.handParkedFlow
  split
  · exact hP.storeFlow _ (hP.measure _ h)
  · exact h

theorem WorkSteady.endHold (hP : WorkSteady P) (hr : ReaderKeeps P run) (h : P s) : P (endHold run s) := by
  unfold Machine.endHold
  split
  · refine hP.handParkedResult hr ?_
    unfold handParkedFlows
    exact forStations_keeps (fun i t ht => hr _ _ _ (fun _ => hP.handParkedFlow) ht) (hP.link _ h)
  · exact h

/-! ### Rounds -/

theorem WorkSteady.computeRound (hP : WorkSteady P) (h : P s) : P (computeRound plain s) := by
  have told : P ((roundRecord s).adjustments.foldl adjustedEvent s) := foldl_keeps (fun _ _ ht => hP.raise _ _ _ _ ht) _ h
  have short : P (shortfallEvent (roundRecord s) ((roundRecord s).adjustments.foldl adjustedEvent s)) := by
    unfold shortfallEvent
    split
    · split
      · exact told
      · exact hP.raise _ _ _ _ told
    · split
      · exact hP.raise _ _ _ _ told
      · exact told
  refine hP.balancer _ ?_
  unfold outcomeEvent
  split
  · exact short
  · split
    · exact hP.raise _ _ _ _ short
    · exact hP.raise _ _ _ _ short
    · exact short

theorem WorkSteady.roundEvent (hP : WorkSteady P) (hr : ReaderKeeps P run) (h : P s) : P (roundEvent run s) := by
  have computed : P (run (fun _ => roundReads) Machine.computeRound s) := hr _ _ _ (fun _ => hP.computeRound) h
  unfold Machine.roundEvent handChanges
  split
  · exact foldl_keeps (fun _ a ht => hr _ _ _ (fun _ => hP.roundChange a) ht) _ computed
  · exact computed

theorem WorkSteady.takeRound (hP : WorkSteady P) (hr : ReaderKeeps P run) (h : P s) : P (takeRound run s) :=
  hP.endHold hr (hP.roundEvent hr h)

theorem WorkSteady.startRoundTimer (hP : WorkSteady P) (h : P s) : P (startRoundTimer s) := hP.roundTimer _ h

theorem WorkSteady.releaseMark (hP : WorkSteady P) (h : P s) : P (releaseMark s) := hP.link _ h

theorem WorkSteady.restartRoundTimer (hP : WorkSteady P) (hr : ReaderKeeps P run) (role : LinkRole) (h : P s) :
    P (restartRoundTimer run role s) := by
  have read : P (run (fun u => if u.link.hold then [406] else []) Machine.nothing s) := hr.nothing _ h
  unfold Machine.restartRoundTimer
  dsimp only
  split
  · split
    · exact hP.startRoundTimer (hP.takeRound hr (hP.releaseMark read))
    · exact hP.startRoundTimer read
  · exact h

/-! ### Settings and the link -/

theorem WorkSteady.ensureRoundTimer (hP : WorkSteady P) (hr : ReaderKeeps P run) (h : P s) : P (ensureRoundTimer run s) := by
  unfold Machine.ensureRoundTimer
  split
  · exact h
  · exact hr _ _ _ (fun _ => hP.startRoundTimer) h

theorem WorkSteady.changeRole (hP : WorkSteady P) (hr : ReaderKeeps P run) (old : LinkRole) (h : P s) :
    P (changeRole run old s) := by
  have ended : P (Machine.endHold run s) := hP.endHold hr h
  have released : P (if old = .master then Machine.releaseMark (Machine.endHold run s) else Machine.endHold run s) := by
    split
    · exact hP.releaseMark ended
    · exact ended
  unfold Machine.changeRole
  dsimp only
  generalize (if old = .master then Machine.releaseMark (Machine.endHold run s) else Machine.endHold run s) = u
    at released ⊢
  split
  · have followed := hP.link (u.link.enterSlave u.elapsed (bankClock u) u.pins.markActive) released
    exact hP.roundTimer none followed
  · exact hP.ensureRoundTimer hr (hP.link _ released)
  · split
    · exact hP.link _ (hP.ensureRoundTimer hr (hP.link _ released))
    · exact hP.ensureRoundTimer hr (hP.link _ released)

theorem WorkSteady.followRole (hP : WorkSteady P) (hr : ReaderKeeps P run) (old : LinkRole) (h : P s) :
    P (followRole run old s) := by
  unfold Machine.followRole
  split
  · exact h
  · exact hP.changeRole hr old h

theorem WorkSteady.restartPersistence (hP : WorkSteady P) (h : P s) : P (restartPersistence s) :=
  hP.trip _ ⟨rfl, rfl, .inl rfl, .inr (.inl rfl)⟩ h

theorem WorkSteady.followWord (hP : WorkSteady P) (hr : ReaderKeeps P run) (w : Nat) (old : Settings) (h : P s) :
    P (followWord run w old s) := by
  unfold Machine.followWord
  split
  · exact hr _ _ _ (fun _ => hP.grantTest) h
  · exact hr _ _ _ (fun _ => hP.timeoutDue) h
  · exact hP.restartRoundTimer hr _ h
  · exact hP.restartPersistence h
  · exact hP.restartPersistence h
  · exact hP.followRole hr _ h
  · exact hP.followed _ _ h
  · exact h

/-! ### Damage (R189 to R192) -/

theorem store_slotCount (b : BankSettings) (code v : Nat) :
    (b.store code v).slotCount = b.slotCount ∨ (b.store code v).slotCount = v ∧ code = 22 := by
  unfold BankSettings.store
  split <;> simp

/-- A setting word that returns to its defaults leaves the slot count in its range (R145). -/
theorem copySettingWord_slots (w : Nat) (s : State) : SlotsKept s (copySettingWord w Settings.default s.settings) := by
  have stored (l : List Nat) (b : BankSettings) (hb : b.slotCount = s.settings.bank.slotCount ∨ b.slotCount ≤ 4) :
      (l.foldl (fun b code => b.store code (Settings.default.bank.item code)) b).slotCount = s.settings.bank.slotCount ∨
        (l.foldl (fun b code => b.store code (Settings.default.bank.item code)) b).slotCount ≤ 4 := by
    induction l generalizing b with
    | nil => exact hb
    | cons code rest ih =>
      refine ih _ ?_
      rcases store_slotCount b code (Settings.default.bank.item code) with h | ⟨h, rfl⟩
      · rwa [h]
      · exact .inr (by rw [h]; decide)
  unfold copySettingWord SlotsKept
  split
  · exact .inl rfl
  · exact .inl rfl
  · exact .inl rfl
  · exact .inl rfl
  · exact stored _ _ (.inl rfl)

theorem ReadSteady.damageSetting (hP : ReadSteady P) (hr : ReaderKeeps P run) (w : Nat) (h : P s) :
    P (damageSetting run w s) := by
  have restored : P { s with settings := copySettingWord w Settings.default s.settings } :=
    hP.settings _ (copySettingWord_slots w s) h
  have flagged := hP.reading (s := { s with settings := copySettingWord w Settings.default s.settings })
    { s.memory with damagedSetting := true } (flag_read _) restored
  exact hP.followWord hr _ _ (hP.rewriteWords _ flagged)

theorem ReadSteady.damageRecord (hP : ReadSteady P) (hr : ReaderKeeps P run) (k : Nat) (h : P s) :
    P (damageRecord run i k s) := by
  refine hr _ _ _ (fun t ht => ?_) h
  split
  case isTrue ha => exact hP.moveRequest 0 (hP.recordLost i k ha ht)
  case isFalse ha => exact hP.damageUnused i k (Bool.eq_false_iff.2 ha) ht

theorem ReadSteady.ownerHandles (hP : ReadSteady P) (hr : ReaderKeeps P run) (w : Nat) (h : P s) :
    P (ownerHandles run w s) := by
  unfold Machine.ownerHandles
  split
  · exact hP.damageRecord hr _ h
  · split
    · exact hP.damageSetting hr w h
    · split
      · exact hr _ _ _ (fun t ht => hP.rewriteWords _ (hP.samplerKept rfl rfl rfl rfl rfl id id rfl ht)) h
      · split
        · exact hP.rewriteWords _ (hP.samplerKept rfl rfl rfl rfl rfl id id rfl h)
        · exact hP.rewriteWords _ h

theorem ReadSteady.damageWord (hP : ReadSteady P) (hr : ReaderKeeps P run) (w : Nat) (h : P s) : P (damageWord run w s) :=
  hP.ownerHandles hr w (hr _ _ _ (fun _ => hP.raise _ _ _ _)
    (hP.reading _ ((list_read w s.memory).trans (rewrite_read w _)) h))

theorem misread_memory (w : Nat) (m : WordBits) (s : State) : (misread w m s).memory = s.memory := by
  unfold misread
  split
  · split <;> rfl
  · split
    · rfl
    · split
      · rfl
      · split <;> rfl

theorem ReadSteady.readManyWrong (hP : ReadSteady P) (hr : ReaderKeeps P run) (w : Nat)
    (hw : 3 ≤ countBits (wrongBitsIn s.memory.wrongBits w)) (h : P s) :
    P (readManyWrong run w (wrongBitsIn s.memory.wrongBits w) s) := by
  have read : P (Machine.misread w (wrongBitsIn s.memory.wrongBits w) s) := hP.misread w hw h
  have marked (b : WordBits) : P (markWord w b (Machine.misread w (wrongBitsIn s.memory.wrongBits w) s)) :=
    hP.reading _ (by rw [misread_memory]; exact mark_read hw b) read
  unfold Machine.readManyWrong
  split
  · exact marked _
  · exact hP.reading _ (correct_read w _) (marked _)
  · exact hP.damageWord hr w h

theorem ReadSteady.readWord (hP : ReadSteady P) (hr : ReaderKeeps P run) (w : Nat) (h : P s) : P (readWord run w s) := by
  unfold Machine.readWord
  match hn : countBits (wrongBitsIn s.memory.wrongBits w) with
  | 0 => exact h
  | 1 => exact hP.reading _ (correct_read w _) h
  | 2 => exact hP.damageWord hr w h
  | n + 3 => exact hP.readManyWrong hr w (by omega) h

end Run

/-! ### Checked reads (R187) -/

theorem ReadSteady.checkWith (hP : ReadSteady P) (n : Nat) (need : State → List Nat) (h : P s) : P (checkWith n need s) := by
  induction n generalizing need s with
  | zero => exact h
  | succ n ih => exact readInTurn_keeps (fun w t ht => hP.readWord (hP.behind fun need s hs => ih need hs) w ht) _ _ _ h

theorem ReadSteady.check (hP : ReadSteady P) (need : State → List Nat) (h : P s) : P (check need s) :=
  hP.checkWith _ _ h

/-- Checked work keeps whatever the work keeps. -/
theorem ReadSteady.checked (hP : ReadSteady P) : ReaderKeeps P checked := hP.behind fun need _ => hP.check need

/-- A property that stands behind checked reads and evaluations of the trip function. -/
structure CheckSteady (P : State → Prop) : Prop extends TableSteady P where
  trip : ∀ {s} u, TripStep s u → P s → P { s with trip := u }
  check : ∀ need s, P s → P (Machine.check need s)
  written : ∀ ws s, P s → P (Machine.rewriteWords ws s)

theorem ReadSteady.checks (hP : ReadSteady P) : CheckSteady P where
  toTableSteady := hP.toTableSteady
  trip u := hP.trip u
  check need _ := hP.check need
  written ws _ := hP.rewriteWords ws

theorem CheckSteady.checked_to (hP : CheckSteady P) (hQ : CheckSteady Q) {work : Work} (hw : ∀ t, P t → Q (work plain t))
    (need : State → List Nat) (h : P s) : Q (Machine.checked need work s) :=
  behind_to hQ.written hP.check hw need h

theorem CheckSteady.checked (hP : CheckSteady P) : ReaderKeeps P checked := fun need _ _ hw h => hP.checked_to hP hw need h

/-- Checked work that leads from one property to another. -/
theorem ReadSteady.checked_to (hP : ReadSteady P) (hQ : ReadSteady Q) {work : Work} (hw : ∀ t, P t → Q (work plain t))
    (need : State → List Nat) (h : P s) : Q (Machine.checked need work s) := hP.checks.checked_to hQ.checks hw need h

/-- Two such properties together are one. -/
theorem PartSteady.and (hP : PartSteady P) (hQ : PartSteady Q) : PartSteady fun s => P s ∧ Q s where
  raise k n e v h := ⟨hP.raise k n e v h.1, hQ.raise k n e v h.2⟩
  soft i w hw h := ⟨hP.soft i w hw h.1, hQ.soft i w hw h.2⟩
  aim i r h := ⟨hP.aim i r h.1, hQ.aim i r h.2⟩
  enter i n l f he ha ht h := ⟨hP.enter i n l f he ha ht h.1, hQ.enter i n l f he ha ht h.2⟩
  enterAim i n l f r he h := ⟨hP.enterAim i n l f r he h.1, hQ.enterAim i n l f r he h.2⟩
  standDown i h := ⟨hP.standDown i h.1, hQ.standDown i h.2⟩
  sampler k hk h := ⟨hP.sampler k hk h.1, hQ.sampler k hk h.2⟩
  drive d hd h := ⟨hP.drive d hd h.1, hQ.drive d hd h.2⟩
  elapsed v h := ⟨hP.elapsed v h.1, hQ.elapsed v h.2⟩
  conversionDue v h := ⟨hP.conversionDue v h.1, hQ.conversionDue v h.2⟩
  restartDue v h := ⟨hP.restartDue v h.1, hQ.restartDue v h.2⟩
  pins v h := ⟨hP.pins v h.1, hQ.pins v h.2⟩
  measure v h := ⟨hP.measure v h.1, hQ.measure v h.2⟩
  balancer v h := ⟨hP.balancer v h.1, hQ.balancer v h.2⟩
  link v h := ⟨hP.link v h.1, hQ.link v h.2⟩
  control v h := ⟨hP.control v h.1, hQ.control v h.2⟩
  monitor v h := ⟨hP.monitor v h.1, hQ.monitor v h.2⟩
  roundTimer v h := ⟨hP.roundTimer v h.1, hQ.roundTimer v h.2⟩
  condition v h := ⟨hP.condition v h.1, hQ.condition v h.2⟩
  trip u hu h := ⟨hP.trip u hu h.1, hQ.trip u hu h.2⟩
  settings v hv h := ⟨hP.settings v hv h.1, hQ.settings v hv h.2⟩
  memory m hm h := ⟨hP.memory m hm h.1, hQ.memory m hm h.2⟩
  events u hu h := ⟨hP.events u hu h.1, hQ.events u hu h.2⟩
  recordLost i k ha h := ⟨hP.recordLost i k ha h.1, hQ.recordLost i k ha h.2⟩
  damageUnused i k ha h := ⟨hP.damageUnused i k ha h.1, hQ.damageUnused i k ha h.2⟩
  misread w hw h := ⟨hP.misread w hw h.1, hQ.misread w hw h.2⟩
  assign i c hu hc h := ⟨hP.assign i c hu hc h.1, hQ.assign i c hu hc h.2⟩
  reconfigure i c full ws ha hc h := ⟨hP.reconfigure i c full ws ha hc h.1, hQ.reconfigure i c full ws ha hc h.2⟩
  pinned i v h := ⟨hP.pinned i v h.1, hQ.pinned i v h.2⟩
  unassign i hs h := ⟨hP.unassign i hs h.1, hQ.unassign i hs h.2⟩

end Part

end Sys2Proof.Proofs
end

section
/-! A property that speaks of none but the bank's mode, the trip unit, the memory, the event unit, the slot count, the queue of
commands and the form of sampler and drive stands behind every elementary change as soon as it stands behind what such a
change may do to these: `PartSteady.of_blocks`. -/

namespace Sys2Proof.Proofs

open Sys2Proof Sys2Proof.Machine Sys2Proof.Laws

/-- What an elementary change may do to the blocks other than the station table. -/
structure BlocksStep (s t : State) : Prop where
  mode : t.bank.mode = s.bank.mode
  isolation : t.bank.isolation = s.bank.isolation
  pending : t.pending = s.pending
  powered : t.powered = s.powered
  trip : TripStep s t.trip
  memory : MemoryStep s.memory t.memory
  events : EventUnitSound s.events → EventUnitSound t.events
  phased : FlightPhased s.sampler → FlightPhased t.sampler ∧ (t.sampler.phase = .stopped ↔ s.sampler.phase = .stopped)
  counts : SamplerCounts s.sampler → SamplerCounts t.sampler
  slots : FewWrong s.memory.wrongBits → SlotsKept s t.settings
  drive : FewWrong s.memory.wrongBits → DriveStep s t.drive

section Steps

variable {s t u : State}

theorem TripStep.refl (s : State) : TripStep s s.trip := ⟨rfl, rfl, .inl rfl, .inl rfl⟩

theorem BlocksStep.refl (s : State) : BlocksStep s s :=
  ⟨rfl, rfl, rfl, rfl, .refl s, .refl _, id, fun h => ⟨h, Iff.rfl⟩, id, fun _ => .inl rfl, fun _ => .refl s⟩

theorem BlocksStep.trans (h : BlocksStep s t) (h' : BlocksStep t u) : BlocksStep s u where
  mode := h'.mode.trans h.mode
  isolation := h'.isolation.trans h.isolation
  pending := h'.pending.trans h.pending
  powered := h'.powered.trans h.powered
  trip :=
    { latch := h'.trip.latch.trans h.trip.latch
      linkDrive := h'.trip.linkDrive.trans h.trip.linkDrive
      line := h'.trip.line.elim (fun e => h.trip.line.imp e.trans e.trans) .inr
      timer := h'.trip.timer.elim (fun e => h.trip.timer.imp e.trans (.imp_left e.trans))
        fun k => .inr (k.imp_right fun m => h.mode ▸ m) }
  memory := h.memory.trans h'.memory
  events := h'.events ∘ h.events
  phased hp := ⟨(h'.phased (h.phased hp).1).1, (h'.phased (h.phased hp).1).2.trans (h.phased hp).2⟩
  counts := h'.counts ∘ h.counts
  slots hf := (h'.slots (h.memory.few hf)).elim (fun e => (h.slots hf).imp e.trans (fun l => e ▸ l)) .inr
  drive hf :=
    { listed := fun hl hn => (h'.drive (h.memory.few hf)).listed ((h.drive hf).listed hl hn)
        ((h.slots hf).elim (fun e => e ▸ hn) id)
      idle := fun hm he => (h'.drive (h.memory.few hf)).idle (h.mode ▸ hm) ((h.drive hf).idle hm he) }

/-- A change that leaves these blocks alone. -/
theorem BlocksStep.of_same (mode : t.bank.mode = s.bank.mode) (isolation : t.bank.isolation = s.bank.isolation)
    (pending : t.pending = s.pending) (powered : t.powered = s.powered) (trip : t.trip = s.trip) (memory : t.memory = s.memory) (events : t.events = s.events)
    (settings : t.settings = s.settings) (sampler : t.sampler = s.sampler) (drive : t.drive = s.drive) :
    BlocksStep s t where
  mode := mode
  isolation := isolation
  pending := pending
  powered := powered
  trip := trip ▸ .refl s
  memory := memory ▸ .refl _
  events h := events ▸ h
  phased h := by rw [sampler]; exact ⟨h, Iff.rfl⟩
  counts h := by rw [sampler]; exact h
  slots _ := .inl (by rw [settings])
  drive _ := drive ▸ .refl s

theorem setWork_blocks (i : StationIx) (w : StationWork) (s : State) : BlocksStep s (s.setWork i w) :=
  .of_same rfl rfl rfl rfl rfl rfl rfl rfl rfl rfl

theorem setCfg_blocks (i : StationIx) (c : StationConfig) (s : State) : BlocksStep s (s.setCfg i c) :=
  .of_same rfl rfl rfl rfl rfl rfl rfl rfl rfl rfl

theorem raise_blocks (k : EventKind) (n : Nat) (e : Option Edge) (v : Option Nat) (s : State) :
    BlocksStep s (raise k n e v s) :=
  { BlocksStep.refl s with events := fun h => take_keeps _ _ _ h.1 h.2 }

theorem sampler_blocks {k : Sampler} (h : SamplerStep s k) : BlocksStep s { s with sampler := k } :=
  { BlocksStep.refl s with phased := h.phased, counts := h.counts }

theorem samplerOnly_blocks (only : SamplerOnly s t) (h : SamplerStep s t.sampler) : BlocksStep s t := by
  rw [show t = { s with sampler := t.sampler } from only]
  exact sampler_blocks h

theorem memory_blocks {m : Memory} (h : MemoryStep s.memory m) : BlocksStep s { s with memory := m } :=
  { BlocksStep.refl s with memory := h }

theorem rewriteWords_blocks (ws : List Nat) (s : State) : BlocksStep s (rewriteWords ws s) :=
  memory_blocks (rewrites_step ws s.memory)

theorem dropClaim_blocks (i : StationIx) (s : State) : BlocksStep s (dropClaim i s) := sampler_blocks (dropClaim_step i s)

theorem aimed_blocks (i : StationIx) (requested : Nat) (s : State) : BlocksStep s (aimed i requested s) := by
  unfold aimed
  split
  · exact .refl s
  · exact setWork_blocks i _ s

theorem enterState_blocks (i : StationIx) (new : StationState) (l : List WorkField) (f : StationWork → StationWork)
    (s : State) : BlocksStep s (enterState plain i new l f s) := by
  rw [enterState_plain]
  exact (setWork_blocks i _ s).trans ((raise_blocks _ _ _ _ _).trans
    (samplerOnly_blocks (tellSampler_samplerOnly ..) (tellSampler_step ..)))

theorem standDown_blocks (i : StationIx) (s : State) : BlocksStep s (standDown i plain s) := by
  rw [standDown_plain]
  split
  · exact (setWork_blocks i _ s).trans ((raise_blocks _ _ _ _ _).trans (dropClaim_blocks i _))
  · exact setWork_blocks i _ s

theorem recordLost_blocks (i : StationIx) (k : Nat) (s : State) : BlocksStep s (recordLost i k s) :=
  ((setCfg_blocks i _ s).trans (setWork_blocks i _ _)).trans ((rewriteWords_blocks _ _).trans
    ((raise_blocks _ _ _ _ _).trans ((dropClaim_blocks i _).trans
      (samplerOnly_blocks (abandonFor_samplerOnly i _) (abandonFor_step i _)))))

theorem damageUnused_blocks (i : StationIx) (k : Nat) (s : State) : BlocksStep s (damageUnused i k s) := by
  unfold damageUnused
  split
  · exact (setCfg_blocks i _ s).trans (rewriteWords_blocks _ _)
  · exact (setWork_blocks i _ s).trans (rewriteWords_blocks _ _)

theorem misread_blocks {w : Nat} (hw : 3 ≤ countBits (wrongBitsIn s.memory.wrongBits w)) (b : WordBits) :
    BlocksStep s (misread w b s) := by
  have many : ¬ FewWrong s.memory.wrongBits := fun hf => by
    have := count_le_of_few hf w
    omega
  unfold misread
  split
  · split
    · exact setCfg_blocks _ _ s
    · exact setWork_blocks _ _ s
  · split
    · exact { BlocksStep.refl s with slots := fun hf => absurd hf many }
    · split
      · exact { BlocksStep.refl s with phased := fun h => ⟨h, Iff.rfl⟩ }
      · split
        · exact { BlocksStep.refl s with phased := fun h => ⟨h, Iff.rfl⟩ }
        · exact .refl s

theorem reconfigured_blocks (i : StationIx) (c : StationConfig) (full : Bool) (ws : List Nat) (s : State) :
    BlocksStep s (reconfigured i c full ws s) :=
  (setCfg_blocks i c s).trans ((rewriteWords_blocks _ _).trans (setWork_blocks i _ _))

theorem pinStored_blocks (i : StationIx) (v : Bool) (s : State) : BlocksStep s (pinStored i v s) :=
  (setCfg_blocks i _ s).trans (rewriteWords_blocks _ _)

/-- What stands behind every change of these blocks stands behind every elementary change. -/
theorem PartSteady.of_blocks {P : State → Prop} (hP : ∀ {s t}, BlocksStep s t → P s → P t) : PartSteady P where
  raise k n e v := hP (raise_blocks k n e v _)
  soft i w _ := hP (setWork_blocks i w _)
  aim i r := hP (aimed_blocks i r _)
  enter i n l f _ _ _ := hP (enterState_blocks i n l f _)
  enterAim i n l f r _ := hP ((enterState_blocks i n l f _).trans (aimed_blocks i r _))
  standDown i := hP (standDown_blocks i _)
  sampler _ hk := hP (sampler_blocks hk)
  drive {s} _ hd := hP { BlocksStep.refl s with drive := fun _ => hd }
  elapsed _ := hP (.of_same rfl rfl rfl rfl rfl rfl rfl rfl rfl rfl)
  conversionDue _ := hP (.of_same rfl rfl rfl rfl rfl rfl rfl rfl rfl rfl)
  restartDue _ := hP (.of_same rfl rfl rfl rfl rfl rfl rfl rfl rfl rfl)
  pins _ := hP (.of_same rfl rfl rfl rfl rfl rfl rfl rfl rfl rfl)
  measure _ := hP (.of_same rfl rfl rfl rfl rfl rfl rfl rfl rfl rfl)
  balancer _ := hP (.of_same rfl rfl rfl rfl rfl rfl rfl rfl rfl rfl)
  link _ := hP (.of_same rfl rfl rfl rfl rfl rfl rfl rfl rfl rfl)
  control _ := hP (.of_same rfl rfl rfl rfl rfl rfl rfl rfl rfl rfl)
  monitor _ := hP (.of_same rfl rfl rfl rfl rfl rfl rfl rfl rfl rfl)
  roundTimer _ := hP (.of_same rfl rfl rfl rfl rfl rfl rfl rfl rfl rfl)
  condition {s} _ := hP { BlocksStep.refl s with phased := fun h => ⟨h, Iff.rfl⟩ }
  trip {s} _ hu := hP { BlocksStep.refl s with trip := hu }
  settings {s} _ hv := hP { BlocksStep.refl s with slots := fun _ => hv }
  memory _ hm := hP (memory_blocks hm)
  events {s} _ hu := hP { BlocksStep.refl s with events := hu }
  recordLost i k _ := hP (recordLost_blocks i k _)
  damageUnused i k _ := hP (damageUnused_blocks i k _)
  misread _ hw := hP (misread_blocks hw _)
  assign i c _ _ := hP ((setCfg_blocks i c _).trans ((rewriteWords_blocks _ _).trans (enterState_blocks ..)))
  reconfigure i c full ws _ _ := hP ((reconfigured_blocks i c full ws _).trans (aimed_blocks ..))
  pinned i v := hP ((pinStored_blocks i v _).trans (aimed_blocks ..))
  unassign i _ := hP ((setCfg_blocks i _ _).trans ((rewriteWords_blocks _ _).trans (enterState_blocks ..)))

end Steps

end Sys2Proof.Proofs
end

section
/-! A property that stands behind the elementary changes of every block, and behind the changes of mode and the restarts,
stands behind every command: evaluations and trips, samples, the rows of the catalogue, the timers, and the theorem
`ModeSteady.exec`. -/

namespace Sys2Proof.Proofs

open Sys2Proof Sys2Proof.Machine Sys2Proof.Laws

/-! ### Changes of mode and restarts -/

/-- A property `P` of a part at rest, with what stands in its place between a change of mode into RUNNING or TRIPPED and the
sampler's start (`up`), and between one into IDLE and the sampler's stop (`down`). `energises` is asked where the mode becomes
RUNNING. -/
structure ModeSteady (P up down : State → Prop) (energises : Prop) : Prop where
  rest : PartSteady P
  rising : PartSteady up
  falling : PartSteady down
  trip : ∀ {s} o, P s → up (tripUnit o s)
  started : ∀ {s}, up s → P (startSampler plain s)
  running : ∀ {s}, energises → s.bank.mode = .idle → P s → up (setMode .running s)
  resuming : ∀ {s}, energises → s.bank.mode = .tripped → P s → P (leaveTripped (setMode .running s))
  stopping : ∀ {s}, s.bank.mode = .running → P s → down (setMode .idle s)
  leaving : ∀ {s}, s.bank.mode = .tripped → P s → down (leaveTripped (setMode .idle s))
  stopped : ∀ {s} ws, down s → P (stopSampler (rewriteWords ws
    { s with drive := { s.drive with queue := [], motions := [] } }))
  cold : ∀ {s}, P s → P (State.cold s.pins s.pending)
  warm : ∀ {s}, P s → P (warmRestartBare s)

/-- A property `P` that stands behind checked reads and trips, with what stands in its place between the change of mode and the
sampler's start. -/
structure TripSteady (P up : State → Prop) : Prop where
  rest : CheckSteady P
  rising : CheckSteady up
  trip : ∀ {s} o, P s → up (tripUnit o s)
  started : ∀ {s}, up s → P (startSampler plain s)

theorem ModeSteady.trips {P up down : State → Prop} {E : Prop} (hM : ModeSteady P up down E) : TripSteady P up :=
  ⟨hM.rest.checks, hM.rising.checks, hM.trip, hM.started⟩

/-- The sampler is not STOPPED, and its phase agrees with its sample. -/
def Awake (s : State) : Prop := FlightPhased s.sampler ∧ s.sampler.phase ≠ .stopped

theorem awake_steady : PartSteady Awake :=
  .of_blocks fun h ha => ⟨(h.phased ha.1).1, fun e => ha.2 ((h.phased ha.1).2.1 e)⟩

section Commands

variable {P up down : State → Prop} {E : Prop} {s : State}

/-! ### Evaluations and trips (R168 to R170) -/

theorem CheckSteady.refreshOutput (hP : CheckSteady P) (h : P s) : P (refreshOutput s) :=
  hP.trip _ ⟨rfl, rfl, .inl rfl, .inl rfl⟩ h

theorem CheckSteady.followOutput (hP : CheckSteady P) (h : P s) : P (followOutput s) := by
  unfold Machine.followOutput
  split
  case isTrue => exact hP.trip _ ⟨rfl, rfl, .inl rfl, .inr (.inl rfl)⟩ h
  case isFalse active =>
    split
    · exact h
    · refine hP.trip _ ⟨rfl, rfl, .inl rfl, .inr (.inr fun e => active ?_)⟩ h
      simp [e]

theorem CheckSteady.evaluateOutput (hP : CheckSteady P) (h : P s) : P (evaluateOutput plain s) :=
  hP.followOutput (hP.refreshOutput h)

theorem PartSteady.refreshOutput (hP : PartSteady P) (h : P s) : P (refreshOutput s) := hP.checks.refreshOutput h

theorem PartSteady.evaluateOutput (hP : PartSteady P) (h : P s) : P (evaluateOutput plain s) := hP.checks.evaluateOutput h

theorem TripSteady.tripped (hM : TripSteady P up) (o : TripOrigin) (h : P s) : P (Machine.trip checked o s) := by
  have told : up (checked noWords (fun _ => tripUnit o) s) :=
    hM.rest.checked_to hM.rising (fun _ => hM.trip o) _ h
  have read := hM.rising.checked.nothing (fun _ => allWorkWords) told
  have stood : up (standDownAll checked (checked (fun _ => allWorkWords) nothing
      (checked noWords (fun _ => tripUnit o) s))) := by
    unfold standDownAll
    exact forStations_keeps (fun i t ht => hM.rising.checked _ _ _ (fun _ => hM.rising.standDown i) ht) read
  exact hM.rising.checked_to hM.rest (fun _ => hM.started) _
    (hM.rising.checked _ _ _ (fun _ => hM.rising.tripOrder _) stood)

theorem TripSteady.tripAndRefresh (hM : TripSteady P up) (o : TripOrigin) (h : P s) :
    P (tripAndRefresh checked o s) := hM.rest.refreshOutput (hM.tripped o h)

theorem TripSteady.tripIfDue (hM : TripSteady P up) (h : P s) : P (tripIfDue checked s) := by
  unfold Machine.tripIfDue
  split
  · exact hM.tripAndRefresh _ h
  · exact h

theorem TripSteady.evaluateTrip (hM : TripSteady P up) (need : State → List Nat) (h : P s) :
    P (evaluateTrip checked need s) := hM.tripIfDue (hM.rest.checked _ _ _ (fun _ => hM.rest.evaluateOutput) h)

theorem TripSteady.judge (hM : TripSteady P up) (before : State) (h : P s) : P (judge before s) :=
  hM.evaluateTrip _ h

theorem TripSteady.judgeFound (hM : TripSteady P up) (before : State) (h : P s) : P (judgeFound before s) := by
  unfold Machine.judgeFound
  split
  · exact hM.judge before h
  · exact h

theorem TripSteady.carryOut (hM : TripSteady P up) {work : Work} (hw : ∀ t, P t → P (work plain t))
    (need : State → List Nat) (h : P s) : P (carryOut need work s) :=
  hM.judgeFound _ (hM.rest.checked _ _ _ hw h)

theorem ModeSteady.tripAndRefresh (hM : ModeSteady P up down E) (o : TripOrigin) (h : P s) :
    P (tripAndRefresh checked o s) := hM.trips.tripAndRefresh o h

theorem ModeSteady.tripIfDue (hM : ModeSteady P up down E) (h : P s) : P (tripIfDue checked s) := hM.trips.tripIfDue h

theorem ModeSteady.evaluateTrip (hM : ModeSteady P up down E) (need : State → List Nat) (h : P s) :
    P (evaluateTrip checked need s) := hM.trips.evaluateTrip need h

theorem ModeSteady.judge (hM : ModeSteady P up down E) (before : State) (h : P s) : P (judge before s) :=
  hM.trips.judge before h

theorem ModeSteady.judgeFound (hM : ModeSteady P up down E) (before : State) (h : P s) : P (judgeFound before s) :=
  hM.trips.judgeFound before h

theorem ModeSteady.carryOut (hM : ModeSteady P up down E) {work : Work} (hw : ∀ t, P t → P (work plain t))
    (need : State → List Nat) (h : P s) : P (carryOut need work s) := hM.trips.carryOut hw need h

/-! ### Restarts (R162, R163) -/

theorem ModeSteady.warmRestart (hM : ModeSteady P up down E) (h : P s) : P (warmRestart s) := by
  refine hM.judgeFound _ (hM.tripIfDue (hM.rest.checked _ _ _ (fun t ht => ?_) (hM.warm h)))
  have begun : P (beginScrub t) := hM.rest.memory _ (.of_marks rfl fun h => h) ht
  exact hM.rest.evaluateOutput begun

theorem ModeSteady.restartAs (hM : ModeSteady P up down E) (k : Option RestartKind) (h : P s) : P (restartAs k s) := by
  match k with
  | none => exact h
  | some .cold => exact hM.cold h
  | some .warm => exact hM.warmRestart h

/-! ### Requests (R212, R213) -/

/-- What an owner does and goes on to do keeps a property: a query does nothing, and what another request leaves in front of
its onward part may be a property of its own. -/
def RowKeeps (P : State → Prop) (row : RequestRow) : Prop :=
  (row.query = true → ∀ p body t, (row.act plain p body t).state = t) ∧
    (row.query = false → ∀ p body t, P t → ∃ M, PartSteady M ∧ M (row.act plain p body t).state ∧
      ∀ u, M u → P ((row.act plain p body t).onward u))

theorem ModeSteady.ownerAnswers (hM : ModeSteady P up down E) {row : RequestRow} (hrow : RowKeeps P row) (p : Port)
    (body : List Byte) (h : P s) : P (ownerAnswers row p body s).state := by
  have read := hM.rest.check (fun u => row.reads body u ++ usedWords (row.work p body) u) h
  unfold Machine.ownerAnswers
  dsimp only
  split
  case isTrue hq =>
    refine hM.rest.noteWrites _ _ ?_
    rw [hrow.1 hq]
    exact hM.judgeFound _ read
  case isFalse hq =>
    obtain ⟨M, steady, stored, onward⟩ := hrow.2 (by simpa using hq) p body _ read
    have done : P ((row.answer p body (check (fun u => row.reads body u ++ usedWords (row.work p body) u) s)).onward
        (row.answer p body (check (fun u => row.reads body u ++ usedWords (row.work p body) u) s)).state) :=
      onward _ (steady.noteWrites _ _ stored)
    unfold Answer.settled
    dsimp only
    split
    · exact hM.judge _ done
    · exact done

theorem ModeSteady.takeRequest (hM : ModeSteady P up down E) {row : RequestRow} (hrow : RowKeeps P row) (r : Request)
    (h : P s) : P (takeRequest row r s) := by
  have got : P (received r.port s) := hM.rest.setPort _ _ h
  have answered : P (answerTo row r (received r.port s)).state := by
    unfold answerTo
    split
    · exact got
    · split
      · exact got
      · exact hM.ownerAnswers hrow _ _ got
  unfold Machine.takeRequest
  dsimp only
  split
  · exact got
  · split
    · exact got
    · exact hM.restartAs _ answered
  · exact hM.rest.setPort _ _ answered

theorem perform_keeps {f : State → State} (hf : P s → P (f s)) (h : P s) {t : State} (ht : perform f s = .next t) : P t := by
  obtain rfl : (if s.powered then f s else s) = t := by simpa [perform] using ht
  split
  · exact hf h
  · exact h

/-! ### Rows of the catalogue -/

theorem queryRow_keeps (kind : Byte) (reads : List Nat) (contents : Port → State → List Byte) :
    RowKeeps P (queryRow kind reads contents) := ⟨fun _ _ _ _ => rfl, fun h => by simp [queryRow] at h⟩

theorem stationRow_keeps : RowKeeps P stationRow := by
  refine ⟨fun _ p body t => ?_, fun h => by simp [stationRow] at h⟩
  dsimp only [stationRow]
  split <;> rfl

theorem peekRow_keeps : RowKeeps P peekRow := by
  refine ⟨fun _ p body t => ?_, fun h => by simp [peekRow] at h⟩
  dsimp only [peekRow]
  split <;> rfl

/-- A request whose owner leaves the property standing, and whatever it goes on to do. -/
theorem rowKeeps_of {row : RequestRow} (hP : PartSteady P) (hq : row.query = false)
    (h : ∀ p body t, P t → P (row.act plain p body t).state ∧ ∀ u, P u → P ((row.act plain p body t).onward u)) :
    RowKeeps P row :=
  ⟨fun e => by simp [hq] at e, fun _ p body t ht => ⟨P, hP, h p body t ht⟩⟩

/-- An answer that leaves a property standing and goes on to do nothing. -/
def AnswerKeeps (P : State → Prop) (a : Answer) : Prop := P a.state ∧ ∀ u, P u → P (a.onward u)

theorem answerKeeps_refuse (c : Status) (h : P s) : AnswerKeeps P (refuse c s) := ⟨h, fun _ h => h⟩

theorem answerKeeps_accept (h : P s) : AnswerKeeps P (accept s) := ⟨h, fun _ h => h⟩

/-- Whatever a row is asked, its owner's answer keeps the property. -/
def ActKeeps (P : State → Prop) (row : RequestRow) : Prop :=
  ∀ p body t, P t → AnswerKeeps P (row.act plain p body t)

theorem commandRow_act {operation : Nat} {reads : StationIx → State → List Nat}
    {act : Access → StationIx → State → Answer} (h : ∀ i t, P t → AnswerKeeps P (act plain i t)) :
    ActKeeps P (commandRow operation reads act) := by
  intro p body t ht
  dsimp only [commandRow]
  split
  · split
    · exact h _ t ht
    · exact answerKeeps_refuse _ ht
  · exact answerKeeps_refuse _ ht

theorem modeRow_keeps {operation : Nat} {act : State → Answer} (hP : PartSteady P)
    (h : ∀ t, P t → ∃ M, PartSteady M ∧ M (act t).state ∧ ∀ u, M u → P ((act t).onward u)) :
    RowKeeps P (modeRow operation act) := by
  refine ⟨fun e => by simp [modeRow] at e, fun _ p body t ht => ?_⟩
  dsimp only [modeRow]
  split
  · exact h t ht
  · exact ⟨P, hP, ht, fun _ h => h⟩

/-! #### Station commands -/

theorem startRow_act (hP : TableSteady P) : ActKeeps P startRow := by
  refine commandRow_act fun i t ht => ?_
  unfold startCommand
  split
  · exact answerKeeps_refuse _ ht
  · split
    case isTrue hs => exact answerKeeps_accept (hP.startStation hs ht)
    case isFalse => exact answerKeeps_refuse _ ht

theorem stopRow_act (hP : TableSteady P) : ActKeeps P stopRow := by
  refine commandRow_act fun i t ht => ?_
  unfold stopCommand
  split
  case isTrue hs => exact answerKeeps_accept (hP.stopStation hs ht)
  case isFalse => exact answerKeeps_refuse _ ht

theorem isolateRow_act (hP : TableSteady P) : ActKeeps P isolateRow := by
  refine commandRow_act fun i t ht => ?_
  unfold isolateCommand
  split
  case isTrue hs =>
    simp only [Bool.and_eq_true, Bool.not_eq_true'] at hs
    exact answerKeeps_accept (hP.isolateStation hs.1 hs.2 ht)
  case isFalse => exact answerKeeps_refuse _ ht

theorem releaseRow_act (hP : TableSteady P) : ActKeeps P releaseRow := by
  refine commandRow_act fun i t ht => ?_
  unfold releaseCommand
  split
  case isTrue hs => exact answerKeeps_accept (hP.releaseStation hs ht)
  case isFalse => exact answerKeeps_refuse _ ht

theorem isFaulted_iff {st : StationState} : st.isFaulted = true ↔ ∃ c, st = .faulted c := by
  cases st <;> simp [StationState.isFaulted]

theorem clearFaultRow_act (hP : TableSteady P) : ActKeeps P clearFaultRow := by
  refine commandRow_act fun i t ht => ?_
  unfold clearFaultCommand
  split
  case isTrue => exact answerKeeps_refuse _ ht
  case isFalse hs =>
    simp only [Bool.or_eq_true, Bool.not_eq_true', not_or, Bool.not_eq_false, Bool.not_eq_true] at hs
    obtain ⟨c, hc⟩ := isFaulted_iff.1 hs.1
    split
    · exact answerKeeps_refuse _ ht
    · exact answerKeeps_accept (hP.clearFault hc hs.2 ht)

theorem unassignRow_act (hP : QuietSteady P) : ActKeeps P unassignRow := by
  refine commandRow_act fun i t ht => ?_
  unfold unassignCommand
  split
  case isTrue hs => exact answerKeeps_accept (hP.unassign i hs ht)
  case isFalse => exact answerKeeps_refuse _ ht

theorem pinCommand_keeps (hP : QuietSteady P) (v : Bool) (i : StationIx) {t : State} (ht : P t) :
    AnswerKeeps P (pinCommand v plain i t) := by
  unfold pinCommand
  split
  · split
    · exact answerKeeps_accept ht
    · exact answerKeeps_accept (hP.applyTarget_of_aimed (hP.pinned i v ht))
  · exact answerKeeps_refuse _ ht

theorem sampleNowRow_act (hP : TableSteady P) : ActKeeps P sampleNowRow := by
  refine commandRow_act fun i t ht => ?_
  unfold sampleNowCommand
  split
  case isTrue => exact answerKeeps_refuse _ ht
  case isFalse ready =>
    split
    · exact answerKeeps_accept ht
    · split
      · exact answerKeeps_refuse _ ht
      · exact answerKeeps_accept (hP.addDemand (active_of_sampleable (by simpa using ready)) ht)

/-! #### STATION SET -/

/-- The range of the configuration field of an item code (R2); 0 stands for the lower bound of K. -/
def FieldInRange (c : StationConfig) : Nat → Prop
  | 0 => 1 ≤ c.k
  | 1 => c.k ≤ 65535
  | 2 => 20 ≤ c.vMin ∧ c.vMin ≤ 500
  | 3 => c.vMax ≤ 1000
  | 5 => c.sniffOpening ≤ 100
  | 8 => c.eventCode ≤ 7
  | 9 => 1 ≤ c.recoveryCount ∧ c.recoveryCount ≤ 4
  | 10 => 1 ≤ c.quarantineLimit ∧ c.quarantineLimit ≤ 15
  | _ => True

theorem twoBytes_le (a b : Byte) : twoBytes a b ≤ 65535 := by
  have := a.isLt
  have := b.isLt
  unfold twoBytes
  omega

theorem itemsOf_value_le : ∀ (body : List Byte), ∀ it ∈ itemsOf body, it.value ≤ 65535
  | [] => by simp [itemsOf]
  | [_] => by simp [itemsOf]
  | [_, _] => by simp [itemsOf]
  | c :: high :: low :: rest => by
    intro it hit
    rcases List.mem_cons.1 (show it ∈ ⟨c.toNat, twoBytes high low⟩ :: itemsOf rest from hit) with rfl | hit
    · exact twoBytes_le high low
    · exact itemsOf_value_le rest it hit

/-- An item that may stand puts its own field into its range, and takes no field out of it. -/
theorem store_inRange {it : Item} (hok : stationItemOk it.code it.value = true) (hv : it.value ≤ 65535)
    (c : StationConfig) (code : Nat) (h : FieldInRange c code ∨ code = it.code) : FieldInRange (c.store it) code := by
  obtain ⟨k, v⟩ := it
  dsimp only at hok hv h
  unfold stationItemOk at hok
  split at hok <;> simp only [Bool.and_eq_true, Bool.or_eq_true, decide_eq_true_eq, Bool.false_eq_true] at hok
  all_goals
    dsimp only [StationConfig.store]
    unfold FieldInRange at *
    split <;> simp_all

theorem carry_inRange {items : List Item} (hok : ∀ it ∈ items, stationItemOk it.code it.value = true)
    (hv : ∀ it ∈ items, it.value ≤ 65535) (c : StationConfig) (code : Nat)
    (h : FieldInRange c code ∨ code ∈ codesOf items) : FieldInRange (c.carry items) code := by
  induction items generalizing c with
  | nil => exact h.resolve_right (by simp [codesOf])
  | cons it rest ih =>
    refine ih (fun x hx => hok x (List.mem_cons_of_mem _ hx)) (fun x hx => hv x (List.mem_cons_of_mem _ hx)) _ ?_
    have stored := store_inRange (hok it List.mem_cons_self) (hv it List.mem_cons_self) c code
    rcases h with h | h
    · exact .inl (stored (.inl h))
    · rcases List.mem_cons.1 h with h | h
      · exact .inl (stored (.inr h))
      · exact .inr h

theorem complete_iff (c : StationConfig) : c.complete = true ↔
    (∀ code, FieldInRange c code) ∧ c.vMin ≤ c.vMax ∧ c.vMin ≤ c.startOpening ∧ c.startOpening ≤ c.vMax ∧
      c.vMin ≤ c.manualOpening ∧ c.manualOpening ≤ c.vMax := by
  simp only [StationConfig.complete, Bool.and_eq_true, decide_eq_true_eq]
  constructor
  · intro h
    refine ⟨fun code => ?_, by omega⟩
    unfold FieldInRange
    split
    case h_9 => trivial
    all_goals omega
  · rintro ⟨h, rest⟩
    have h0 := h 0
    have h1 := h 1
    have h2 := h 2
    have h3 := h 3
    have h5 := h 5
    have h8 := h 8
    have h9 := h 9
    have h10 := h 10
    simp only [FieldInRange] at h0 h1 h2 h3 h5 h8 h9 h10
    omega

/-- A result of well-formed items that is not refused is complete, once its manual opening is clamped, where the configuration
before was, or every field was carried, or an UNUSED station's defaults were completed (R3, R13, R14). -/
theorem carried_complete {items : List Item} (hok : itemsOk stationItemOk items = true)
    (hv : ∀ it ∈ items, it.value ≤ 65535) {base : StationConfig} {unused : Bool}
    (hr : configRefused (carriesAll items stationCodes) unused (base.carry items) = false)
    (hb : base.complete = true ∨ carriesAll items stationCodes = true ∨ unused = true ∧ base = StationConfig.default) :
    (base.carry items).clampManual.complete = true := by
  have each : ∀ it ∈ items, stationItemOk it.code it.value = true := by
    simp only [itemsOk, Bool.and_eq_true, List.all_eq_true] at hok
    exact hok.1
  simp only [configRefused, Bool.or_eq_false_iff, decide_eq_false_iff_not, Bool.and_eq_false_iff] at hr
  obtain ⟨⟨⟨hmm, hms⟩, hsm⟩, hk⟩ := hr
  have ranged : ∀ code, FieldInRange (base.carry items) code := by
    intro code
    rcases hb with hb | hb | ⟨hu, rfl⟩
    · exact carry_inRange each hv _ _ (.inl (((complete_iff base).1 hb).1 code))
    · by_cases h0 : code = 0
      · subst h0
        have : (base.carry items).k ≠ 0 := by simpa [hb] using hk
        exact Nat.one_le_iff_ne_zero.2 this
      · by_cases hc : code ∈ stationCodes
        · have all : ∀ x ∈ stationCodes, carries items x = true := by simpa [carriesAll] using hb
          exact carry_inRange each hv _ _ (.inr (by simpa [carries] using all code hc))
        · refine carry_inRange each hv _ _ (.inl ?_)
          unfold FieldInRange
          split <;> simp_all [stationCodes]
    · by_cases h0 : code = 0
      · subst h0
        have : (StationConfig.default.carry items).k ≠ 0 := by simpa [hu] using hk
        exact Nat.one_le_iff_ne_zero.2 this
      · refine carry_inRange each hv _ _ (.inl ?_)
        unfold FieldInRange
        split <;> simp_all [StationConfig.default]
  refine (complete_iff _).2 ⟨fun code => ?_, ?_⟩
  · have := ranged code
    revert this
    unfold FieldInRange
    split <;> exact id
  · dsimp only [StationConfig.clampManual]
    omega

theorem reconfigure_plain (i : StationIx) (c : StationConfig) (full : Bool) (words : List Nat) (s : State) :
    reconfigure plain i c full words s = applyTarget plain i (s.work i).target (reconfigured i c full words s) := by
  unfold reconfigure reconfigured
  simp

theorem stationSet_keeps (hP : PartSteady P) {items : List Item} (hok : itemsOk stationItemOk items = true)
    (hv : ∀ it ∈ items, it.value ≤ 65535) (i : StationIx) {t : State} (ht : P t) :
    AnswerKeeps P (stationSet plain i items t) := by
  unfold stationSet
  cases hu : (t.work i).state.assigned
  case true =>
    simp only [Bool.not_true, Bool.false_eq_true, ↓reduceIte, Bool.not_false, Bool.and_true]
    split
    · exact answerKeeps_accept ht
    · split
      case isTrue => exact answerKeeps_refuse _ ht
      case isFalse hr =>
        refine ⟨?_, fun _ h => h⟩
        dsimp only [accept, acceptWith]
        rw [reconfigure_plain]
        refine hP.applyTarget_of_aimed (hP.reconfigure i _ _ _ hu (fun hc => ?_) ht)
        exact carried_complete hok hv (by simpa using hr) (hc.imp id .inl)
  case false =>
    simp only [Bool.not_false, Bool.not_true, Bool.and_false, Bool.false_eq_true, ↓reduceIte]
    split
    case isTrue => exact answerKeeps_refuse _ ht
    case isFalse hr =>
      refine ⟨?_, fun _ h => h⟩
      have unused : (t.work i).state = .unused := by
        revert hu
        cases (t.work i).state <;> simp [StationState.assigned]
      exact hP.assign i _ unused (carried_complete hok hv (by simpa using hr) (.inr (.inr ⟨rfl, rfl⟩))) ht

theorem stationSetRow_keeps (hP : PartSteady P) : RowKeeps P stationSetRow := by
  refine rowKeeps_of hP rfl fun p body t ht => ?_
  dsimp only [stationSetRow]
  split
  · split
    case isTrue hok => exact stationSet_keeps hP hok (itemsOf_value_le _) _ ht
    case isFalse => exact answerKeeps_refuse _ ht
  · exact answerKeeps_refuse _ ht

/-! #### The sampler's requests -/

theorem sweepSetRow_act (hP : QuietSteady P) (hr : ReaderKeeps P checked) : ActKeeps P sweepSetRow := by
  intro p body t ht
  dsimp only [sweepSetRow]
  split
  · exact ⟨hP.rewriteWords _ (hP.samplerKept rfl rfl rfl rfl rfl id id rfl ht), fun _ => hP.selectNow hr⟩
  · exact answerKeeps_refuse _ ht

theorem lineSetRow_act (hP : QuietSteady P) : ActKeeps P lineSetRow := by
  intro p body t ht
  dsimp only [lineSetRow]
  split
  · refine answerKeeps_accept ?_
    unfold setLines
    split
    · exact ht
    · exact hP.rewriteWords _ (hP.samplerKept rfl rfl rfl rfl rfl id id rfl ht)
  · exact answerKeeps_refuse _ ht

theorem clearLineRow_act (hP : QuietSteady P) (hr : ReaderKeeps P checked) : ActKeeps P clearLineRow := by
  intro p body t ht
  dsimp only [clearLineRow]
  split
  case h_2 => exact answerKeeps_refuse _ ht
  case h_1 l _ =>
    unfold clearLine
    split
    case isFalse => exact answerKeeps_accept ht
    case isTrue =>
      refine ⟨?_, fun _ => hP.selectNow hr⟩
      have unmarked : P { t with sampler := { t.sampler with marks := t.sampler.marks.set l.val false } } :=
        hP.samplerKept rfl rfl rfl rfl rfl id id rfl ht
      dsimp only [Answer.andThen, accept, acceptWith, clearMark]
      split
      · exact hP.dropClaim unmarked
      · exact unmarked

theorem clearCondition_keeps (hP : PartSteady P) (h : P s) : P (clearCondition s) := by
  have cleared : P { s with sampler := { s.sampler with faultCount := 0 } } :=
    hP.quiet.samplerKept rfl rfl rfl rfl rfl id (fun _ => Nat.zero_le 3) rfl h
  have done := hP.condition false cleared
  unfold clearCondition
  dsimp only
  split
  · exact hP.raise _ _ _ _ done
  · exact done

theorem freeSampler_keeps (hP : PartSteady P) (hp : s.sampler.phase = .paused) (h : P s) : P (freeSampler s) := by
  refine hP.sampler _ ⟨fun hf => ?_, id, fun _ => .inl, fun _ => .inl, fun _ => .inl, fun _ => .inl, rfl⟩ h
  unfold FlightPhased at *
  simp_all

theorem clearAnalyserRow_keeps (hP : PartSteady P) : RowKeeps P clearAnalyserRow := by
  refine rowKeeps_of hP rfl fun p body t ht => ?_
  have cleared := clearCondition_keeps hP ht
  dsimp only [clearAnalyserRow, clearAnalyser]
  split
  case isTrue hp =>
    refine ⟨freeSampler_keeps hP ?_ cleared, fun _ => hP.selectNow hP.checked⟩
    unfold clearCondition
    dsimp only
    split <;> exact hp
  case isFalse => exact answerKeeps_accept cleared

/-! #### The bank's requests -/

theorem carry_slots {items : List Item} (hok : itemsOk bankItemOk items = true) (s : State) :
    SlotsKept s { s.settings with bank := s.settings.bank.carry items } := by
  have each : ∀ it ∈ items, it.code = 22 → it.value ≤ 4 := by
    intro it hit h22
    simp only [itemsOk, Bool.and_eq_true, List.all_eq_true] at hok
    have := hok.1 it hit
    rw [h22] at this
    simp only [bankItemOk, bankRange, Bool.and_true, Bool.and_eq_true, decide_eq_true_eq] at this
    exact this.2
  have stored (l : List Item) (hl : ∀ it ∈ l, it.code = 22 → it.value ≤ 4) (b : BankSettings)
      (hb : b.slotCount = s.settings.bank.slotCount ∨ b.slotCount ≤ 4) :
      (b.carry l).slotCount = s.settings.bank.slotCount ∨ (b.carry l).slotCount ≤ 4 := by
    induction l generalizing b with
    | nil => exact hb
    | cons it rest ih =>
      refine ih (fun x hx => hl x (List.mem_cons_of_mem _ hx)) _ ?_
      rcases store_slotCount b it.code it.value with h | ⟨h, h22⟩
      · rwa [h]
      · exact .inr (by rw [h]; exact hl it List.mem_cons_self h22)
  exact stored items each _ (.inl rfl)

theorem followBank_keeps (hP : PartSteady P) (items : List Item) (old : BankSettings) (h : P s) :
    P (followBank items old s) := by
  refine foldl_keeps (fun t code ht => ?_) _ h
  unfold followItem
  split
  · exact hP.checked _ _ _ (fun _ => hP.grantTest) ht
  · exact hP.checked _ _ _ (fun _ => hP.grantTest) ht
  · exact hP.checked _ _ _ (fun _ => hP.timeoutDue) ht
  · exact hP.restartRoundTimer hP.checked _ ht
  · exact hP.followRole hP.checked _ ht
  · exact ht

theorem bankSetRow_keeps (hP : PartSteady P) : RowKeeps P bankSetRow := by
  refine rowKeeps_of hP rfl fun p body t ht => ?_
  dsimp only [bankSetRow]
  split
  case isFalse => exact answerKeeps_refuse _ ht
  case isTrue hok =>
    unfold bankSet
    split
    · exact answerKeeps_refuse _ ht
    · split
      · exact answerKeeps_refuse _ ht
      · split
        · exact answerKeeps_accept ht
        · exact ⟨hP.rewriteWords _ (hP.settings _ (carry_slots hok t) ht), fun _ => followBank_keeps hP _ _⟩

theorem storeTrip_keeps (hP : PartSteady P) (items : List Item) (h : P s) : P (storeTrip items s) :=
  hP.rewriteWords _ (hP.settings _ (.inl rfl) h)

theorem ModeSteady.tripSetRow (hM : ModeSteady P up down E) : RowKeeps P tripSetRow := by
  refine rowKeeps_of hM.rest rfl fun p body t ht => ?_
  dsimp only [Machine.tripSetRow]
  split
  case isFalse => exact answerKeeps_refuse _ ht
  case isTrue =>
    have stored := storeTrip_keeps hM.rest (itemsOf body) ht
    unfold tripSet
    split
    · exact ⟨stored, fun _ hu => hM.evaluateTrip _ (hM.rest.restartPersistence hu)⟩
    · exact answerKeeps_accept stored

theorem ModeSteady.runRow (hM : ModeSteady P up down E) (hE : E) : RowKeeps P runRow := by
  refine modeRow_keeps hM.rest fun t ht => ?_
  unfold runRequest
  split
  case h_1 hi =>
    refine ⟨up, hM.rising, hM.running hE hi ht, fun u hu => ?_⟩
    exact hM.rising.checked_to hM.rest.toReadSteady (fun _ => hM.started) _ (hM.rising.checked _ _ _ (fun _ => hM.rising.runOrder) hu)
  all_goals exact ⟨P, hM.rest, ht, fun _ h => h⟩

/-- What a STOP hands on: the drive's order and the sampler's stop, with the words stored in between. -/
theorem ModeSteady.handStop (hM : ModeSteady P up down E) (h : down s) : P (handStop checked s) := by
  unfold Machine.handStop Machine.checked
  rw [behind_eq]
  have read := hM.falling.check (fun u => noWords u ++ usedWords stopOrder u) h
  rw [stopOrder_plain]
  unfold Machine.noteWrites
  split
  · exact hM.stopped [] read
  · exact hM.stopped _ read

theorem ModeSteady.modeStopRow (hM : ModeSteady P up down E) : RowKeeps P modeStopRow := by
  refine modeRow_keeps hM.rest fun t ht => ?_
  unfold modeStopRequest
  split
  case h_1 => exact ⟨P, hM.rest, ht, fun _ h => h⟩
  case h_2 hr => exact ⟨down, hM.falling, hM.stopping hr ht, fun _ => hM.handStop⟩
  case h_3 htr =>
    split
    · exact ⟨P, hM.rest, ht, fun _ h => h⟩
    · refine ⟨down, hM.falling, hM.leaving htr ht, fun u hu => hM.handStop ?_⟩
      unfold clearRestartMarks
      refine forStations_keeps (fun i t ht => hM.falling.checked _ _ _ (fun v hv => ?_) ht) hu
      exact hM.falling.soft i _ ⟨rfl, rfl, rfl, .inl rfl⟩ hv

theorem handResume_keeps (hP : PartSteady P) (h : P s) : P (handResume checked s) := by
  unfold handResume
  exact forStations_keeps (fun i t ht => hP.checked _ _ _ (fun _ => hP.restartMarked) ht) h

theorem ModeSteady.resumeRow (hM : ModeSteady P up down E) (hE : E) : RowKeeps P resumeRow := by
  refine modeRow_keeps hM.rest fun t ht => ?_
  unfold resumeRequest
  split
  case h_3 htr =>
    split
    · exact ⟨P, hM.rest, ht, fun _ h => h⟩
    · refine ⟨P, hM.rest, ?_, fun u hu => ?_⟩
      · dsimp only [Answer.evaluated, Answer.andThen, accept, acceptWith]
        exact hM.resuming hE htr ht
      · dsimp only [Answer.evaluated, Answer.andThen, accept, acceptWith]
        exact handResume_keeps hM.rest hu
  all_goals exact ⟨P, hM.rest, ht, fun _ h => h⟩

theorem ModeSteady.tripNowRow (hM : ModeSteady P up down E) : RowKeeps P tripNowRow := by
  refine modeRow_keeps hM.rest fun t ht => ?_
  unfold tripNowRequest
  split
  · exact ⟨P, hM.rest, ht, fun _ h => h⟩
  · exact ⟨P, hM.rest, ht, fun _ hu => hM.tripAndRefresh _ (hM.rest.checked.nothing _ hu)⟩

/-! #### The event unit's and the memory's requests -/

theorem takeEventsRow_act (hP : QuietSteady P) : ActKeeps P takeEventsRow := by
  intro p body t ht
  dsimp only [takeEventsRow]
  split
  · refine ⟨hP.events _ (fun ⟨⟨hq, hr⟩, hn⟩ => ⟨⟨?_, hr⟩, hn⟩) ht, fun _ h => h⟩
    exact Nat.le_trans (by simp) hq
  · exact answerKeeps_refuse _ ht

theorem noticeSetRow_act (hP : QuietSteady P) : ActKeeps P noticeSetRow := by
  intro p body t ht
  dsimp only [noticeSetRow]
  split
  · have stored := hP.notice (t.settings.notice.carry (itemsOf body)) ht
    have followed := hP.events (s := { t with settings :=
      { t.settings with notice := t.settings.notice.carry (itemsOf body) } }) (t.events.follow t.settings.notice (t.settings.notice.carry (itemsOf body)))
      (follow_sound _ _) stored
    exact answerKeeps_accept (hP.rewriteWords _ followed)
  · exact answerKeeps_refuse _ ht

theorem clearFlags_sound (now : Nat) (n : NoticeSettings) (gone : CategorySet) {u : EventUnit} (h : EventUnitSound u) :
    EventUnitSound (u.clearFlags now n gone) := by
  obtain ⟨⟨hq, ho, hb, hd⟩, hn⟩ := h
  refine ⟨⟨hq, ?_, hb, hd⟩, withdrawNotices_keeps gone hn⟩
  dsimp only [EventUnit.clearFlags]
  split
  · exact Nat.zero_le _
  · exact ho

theorem clearNoticeRow_act (hP : QuietSteady P) : ActKeeps P clearNoticeRow := by
  intro p body t ht
  dsimp only [clearNoticeRow]
  split
  · exact answerKeeps_accept (hP.events _ (clearFlags_sound _ _ _) ht)
  · exact answerKeeps_refuse _ ht

theorem castSetRow_act (hP : QuietSteady P) : ActKeeps P castSetRow := by
  intro p body t ht
  dsimp only [castSetRow]
  split
  · have stored := hP.cast (t.settings.cast.carry (itemsOf body)) ht
    have zeroed := hP.events (s := { t with settings :=
      { t.settings with cast := t.settings.cast.carry (itemsOf body) } }) { t.events with drops := 0 }
      (fun ⟨⟨hq, ho, hb, _⟩, hn⟩ => ⟨⟨hq, ho, hb, Nat.zero_le _⟩, hn⟩) stored
    exact answerKeeps_accept (hP.rewriteWords _ zeroed)
  · exact answerKeeps_refuse _ ht

theorem integrityClearRow_keeps (hP : PartSteady P) : RowKeeps P integrityClearRow := by
  refine rowKeeps_of hP rfl fun p body t ht => ⟨?_, fun _ => hP.checked.nothing _⟩
  exact hP.memory _ (.of_marks rfl fun ⟨hp, _⟩ =>
    ⟨hp, Nat.zero_le _, List.nodup_nil, Nat.zero_le _, Nat.zero_le _⟩) ht

theorem restartRow_act (P : State → Prop) (k : RestartKind) : ActKeeps P (restartRow k) := by
  intro p body t ht
  dsimp only [restartRow]
  split <;> exact ⟨ht, fun _ h => h⟩

/-- Every row of the catalogue keeps the property, RUN and RESUME where the mode may become RUNNING. -/
theorem ModeSteady.row (hM : ModeSteady P up down E) {c : Instr} (hE : (∃ r, c = .run r ∨ c = .resume r) → E)
    {row : RequestRow} {r : Request} (hc : requestOf c = some (row, r)) : RowKeeps P row := by
  have hP := hM.rest
  cases c <;> simp only [requestOf, Option.some.injEq, Prod.mk.injEq, reduceCtorEq] at hc <;> obtain ⟨rfl, rfl⟩ := hc
  case ident => exact queryRow_keeps ..
  case status => exact queryRow_keeps ..
  case stationQuery => exact stationRow_keeps
  case bankQuery => exact queryRow_keeps ..
  case sweepQuery => exact queryRow_keeps ..
  case tripQuery => exact queryRow_keeps ..
  case integrityQuery => exact queryRow_keeps ..
  case peekEvents => exact peekRow_keeps
  case stationSet => exact stationSetRow_keeps hP
  case start => exact rowKeeps_of hP rfl (startRow_act hP.toTableSteady)
  case stationStop => exact rowKeeps_of hP rfl (stopRow_act hP.toTableSteady)
  case isolate => exact rowKeeps_of hP rfl (isolateRow_act hP.toTableSteady)
  case release => exact rowKeeps_of hP rfl (releaseRow_act hP.toTableSteady)
  case clearFault => exact rowKeeps_of hP rfl (clearFaultRow_act hP.toTableSteady)
  case unassign => exact rowKeeps_of hP rfl (unassignRow_act hP.quiet)
  case pin => exact rowKeeps_of hP rfl (commandRow_act fun i t => pinCommand_keeps hP.quiet true i)
  case unpin => exact rowKeeps_of hP rfl (commandRow_act fun i t => pinCommand_keeps hP.quiet false i)
  case sampleNow => exact rowKeeps_of hP rfl (sampleNowRow_act hP.toTableSteady)
  case sweepSet => exact rowKeeps_of hP rfl (sweepSetRow_act hP.quiet hP.checked)
  case lineSet => exact rowKeeps_of hP rfl (lineSetRow_act hP.quiet)
  case clearLine => exact rowKeeps_of hP rfl (clearLineRow_act hP.quiet hP.checked)
  case clearAnalyser => exact clearAnalyserRow_keeps hP
  case bankSet => exact bankSetRow_keeps hP
  case tripSet => exact hM.tripSetRow
  case run r => exact hM.runRow (hE ⟨r, .inl rfl⟩)
  case modeStop => exact hM.modeStopRow
  case resume r => exact hM.resumeRow (hE ⟨r, .inr rfl⟩)
  case tripNow => exact hM.tripNowRow
  case takeEvents => exact rowKeeps_of hP rfl (takeEventsRow_act hP.quiet)
  case noticeSet => exact rowKeeps_of hP rfl (noticeSetRow_act hP.quiet)
  case clearNotice => exact rowKeeps_of hP rfl (clearNoticeRow_act hP.quiet)
  case castSet => exact rowKeeps_of hP rfl (castSetRow_act hP.quiet)
  case integrityClear => exact integrityClearRow_keeps hP
  case restartCold => exact rowKeeps_of hP rfl (restartRow_act P .cold)
  case restartWarm => exact rowKeeps_of hP rfl (restartRow_act P .warm)

/-! ### Samples (R67 to R78) -/

theorem discardSample_keeps (hP : PartSteady P) (h : P s) (ha : s.sampler.inFlight.isSome = true ∨ s.sampler.phase ≠ .stopped) :
    P (discardSample s) := hP.sampler _ (discardSample_step ha) h

theorem pauseSampler_keeps (hP : PartSteady P) (h : P s) (ha : Awake s) : P (pauseSampler s) := by
  have still : P { s with sampler := { s.sampler with phase := .paused, inFlight := none } } := by
    refine hP.sampler _ ⟨fun _ => ⟨by simp [FlightPhased], by simp [ha.2]⟩, id, fun _ => .inl, fun j hj => ?_,
      fun _ => .inl, fun _ => .inl, rfl⟩ h
    simp [sampledStation] at hj
  exact hP.condition true still

theorem countInvalid_keeps (hP : PartSteady P) (h : P s) (ha : Awake s) : P (countInvalid checked s) := by
  have both := hP.and awake_steady
  have counted : P { s with sampler := { s.sampler with faultCount := min (s.sampler.faultCount + 1) 3 } } ∧
      Awake { s with sampler := { s.sampler with faultCount := min (s.sampler.faultCount + 1) 3 } } :=
    both.quiet.samplerKept rfl rfl rfl rfl rfl id (fun _ => Nat.min_le_right ..) rfl ⟨h, ha⟩
  unfold countInvalid
  dsimp only
  split
  · exact hP.selectNow hP.checked counted.1
  · exact both.checked_to hP.toReadSteady (fun t ht => hP.raise _ _ _ _ (pauseSampler_keeps hP ht.1 ht.2)) _ counted

theorem referenceCheck_keeps (hP : PartSteady P) (c o : Nat) (h : P s) (ha : Awake s) : P (referenceCheck checked c o s) := by
  have both := hP.and awake_steady
  unfold referenceCheck
  dsimp only
  generalize hk : ({ s.sampler with
    lastReference := some ⟨c, o, bankClock s, decide (c ≤ 20) && decide (195 ≤ o)⟩, passCount := 0, referenceDue := false } :
      Sampler) = k
  have noted : P { s with sampler := k } ∧ Awake { s with sampler := k } := by
    subst hk
    exact both.quiet.samplerKept rfl rfl rfl rfl rfl (fun _ => Nat.zero_le _) id rfl ⟨h, ha⟩
  split
  · exact hP.selectNow hP.checked noted.1
  · refine both.checked_to hP.toReadSteady (fun t ht => ?_) _ noted
    have paused := pauseSampler_keeps hP (hP.raise .referenceFail 0 none (some c) ht.1) ht.2
    unfold referenceFails
    dsimp only
    split
    · exact paused
    · exact hP.raise _ _ _ _ paused

theorem deliver_keeps (hP : PartSteady P) (r : StationResult) (h : P s) : P (deliver checked r s) := by
  unfold deliver
  split
  · exact hP.quiet.samplerKept rfl rfl rfl rfl rfl id id rfl h
  · exact hP.fileResult hP.checked r (hP.selectNow hP.checked h)

theorem completeSample_keeps (hP : PartSteady P) (m : Sample) (h : P s) (ha : Awake s) : P (completeSample checked m s) := by
  have both := hP.and awake_steady
  have counted := both.quiet.samplerKept (k := { s.sampler with faultCount := 0 }) rfl rfl rfl rfl rfl id
    (fun _ => Nat.zero_le 3) rfl ⟨h, ha⟩
  have done := discardSample_keeps both counted (.inr ha.2)
  unfold completeSample
  dsimp only
  split
  · exact referenceCheck_keeps hP _ _ done.1 done.2
  · exact deliver_keeps hP _ done.1
  · exact deliver_keeps hP _ done.1

/-- A reading of the sample in flight. -/
theorem takeReading_keeps (hP : PartSteady P) {m : Sample} (fault : Bool) (h : P s) (hm : s.sampler.inFlight = some m)
    (hphase : s.sampler.phase = .reading) : P (takeReading checked m fault s) := by
  have ha : Awake s := ⟨by simp [FlightPhased, hm, hphase], by simp [hphase]⟩
  unfold takeReading
  split
  · dsimp only
    split
    · exact completeSample_keeps hP _ h ha
    · refine hP.sampler _ ⟨fun _ => ⟨by simp [FlightPhased], by simp [hphase]⟩, id, fun _ => .inl, fun j hj => .inl ?_,
        fun _ => .inl, fun _ => .inl, rfl⟩ h
      simpa [sampledStation, hm] using hj
  · have both := hP.and awake_steady
    have gone := discardSample_keeps both ⟨h, ha⟩ (.inr ha.2)
    exact countInvalid_keeps hP gone.1 gone.2

theorem lineFailed_keeps (hP : PartSteady P) (i : StationIx) (l : Line) (h : P s) : P (lineFailed i l plain s) := by
  unfold lineFailed
  dsimp only [plain_look, plain_store]
  split
  case h_1 spare hspare =>
    have active : (s.work i).state.active = true := by
      unfold substitute at hspare
      split at hspare
      · split at hspare
        case isTrue ok =>
          simp only [Bool.and_eq_true] at ok
          exact ok.1.1
        case isFalse => simp at hspare
      · simp at hspare
    have claimed : P (claimSpare i spare s) := by
      have step (k : Sampler) (h17 : k.claim17 = s.sampler.claim17 ∨ k.claim17 = some i)
          (h18 : k.claim18 = s.sampler.claim18 ∨ k.claim18 = some i)
          (hk : k = { s.sampler with claim17 := k.claim17, claim18 := k.claim18 }) : SamplerStep s k := by
        refine ⟨fun hp => ?_, fun hc => ?_, fun j hj => .inl ?_, fun j hj => .inl ?_, fun j hj => ?_, fun j hj => ?_, ?_⟩
        · rw [hk]; exact ⟨hp, Iff.rfl⟩
        · rw [hk]; exact hc
        · rw [hk] at hj; exact hj
        · rw [hk] at hj; exact hj
        · rcases h17 with e | e <;> rw [e] at hj
          · exact .inl hj
          · exact .inr (Option.some.inj hj ▸ active)
        · rcases h18 with e | e <;> rw [e] at hj
          · exact .inl hj
          · exact .inr (Option.some.inj hj ▸ active)
        · rw [hk]
      cases spare
      · exact hP.sampler _ (step _ (.inr rfl) (.inl rfl) rfl) h
      · exact hP.sampler _ (step _ (.inl rfl) (.inr rfl) rfl) h
    have told := hP.raise .substituted (stationNumber i) none (some spare.line.val) claimed
    refine hP.addDemand ?_ told
    cases spare <;> exact active
  case h_2 =>
    split
    · exact hP.faultReport _ h
    · exact h

theorem firstReading_keeps (hP : PartSteady P) {m : Sample} (flow fault : Bool) (h : P s)
    (hm : s.sampler.inFlight = some m) (hphase : s.sampler.phase = .purging) : P (firstReading checked m flow fault s) := by
  have ha : Awake s := ⟨by simp [FlightPhased, hm, hphase], by simp [hphase]⟩
  have both := hP.and awake_steady
  have begun : P { s with sampler := { s.sampler with phase := .reading } } ∧
      Awake { s with sampler := { s.sampler with phase := .reading } } :=
    both.sampler _ ⟨fun _ => ⟨by simp [FlightPhased, hm], by simp [hphase]⟩, id, fun _ => .inl, fun _ => .inl,
      fun _ => .inl, fun _ => .inl, rfl⟩ ⟨h, ha⟩
  unfold firstReading
  dsimp only
  split
  · exact takeReading_keeps hP fault begun.1 hm rfl
  · have failed := both.checked noWords (fun _ => failLine m) _
      (fun t ht => both.raise _ _ _ _ (both.quiet.samplerKept rfl rfl rfl rfl rfl id id rfl ht)) begun
    have gone := (discardSample_keeps both failed (.inr failed.2.2)).1
    refine hP.selectNow hP.checked ?_
    split
    · exact hP.checked _ _ _ (fun _ => lineFailed_keeps hP _ _) gone
    · exact gone

/-! ### Commands of the part's own blocks -/

theorem ModeSteady.conversion (hM : ModeSteady P up down E) (codes : Vector Code 35) (h : P s) :
    P (runConversion codes s) := by
  have hP := hM.rest
  have passed : P { passUntil (conversionInstant s) s with conversionDue := conversionInstant s + 1000 } :=
    hP.conversionDue _ (hP.passUntil _ h)
  refine hM.judge _ (hP.checked.nothing _ ?_)
  unfold stepFlows
  refine forStations_keeps (fun i t ht => hP.checked _ _ _ (fun u hu => ?_) ht) ?_
  · rw [flowStep_plain]
    have handed (r : WindowResult) {v : State} (hv : P v) : P (handFlow plain i r v) := by
      unfold handFlow
      split
      · exact hP.measure _ hv
      · exact hP.storeFlow r hv
    split
    · split
      · exact handed _ (hP.measure _ hu)
      · exact hu
    · dsimp only
      split
      · exact handed _ (hP.measure _ hu)
      · exact hP.measure _ hu
  · unfold movePositions
    refine foldl_keeps (fun t i ht => hP.checked _ _ _ (fun _ => hP.seeMotion) ht) _ ?_
    exact hP.checked _ _ _ (fun _ => hP.takePositions _) (hP.measure _ passed)

theorem endChangeover_keeps (hP : QuietSteady P) (h : P s) : P (endChangeover s) := by
  unfold endChangeover
  split
  case h_1 m hphase hm =>
    split
    · refine hP.sampler _ ⟨fun hf => ⟨?_, Iff.rfl⟩, id, fun _ => .inl, fun j hj => .inl ?_, fun _ => .inl, fun _ => .inl,
        rfl⟩ (hP.passUntil m.due h)
      · simpa [FlightPhased] using (show s.sampler.phase = .purging ∨ _ from .inl hphase)
      · simpa [sampledStation, passUntil, hm] using hj
    · exact h
  case h_2 => exact h

theorem ModeSteady.endPurge (hM : ModeSteady P up down E) (flow fault : Bool) (h : P s) : P (endPurge flow fault s) := by
  unfold Machine.endPurge
  split
  case h_1 m hphase hm =>
    split
    · exact hM.judge _ (firstReading_keeps hM.rest flow fault (hM.rest.passUntil _ h) hm hphase)
    · exact h
  case h_2 => exact h

theorem ModeSteady.nextReading (hM : ModeSteady P up down E) (fault : Bool) (h : P s) : P (nextReading fault s) := by
  unfold Machine.nextReading
  split
  case h_1 m hphase hm => exact hM.judge _ (takeReading_keeps hM.rest fault (hM.rest.passUntil _ h) hm hphase)
  case h_2 => exact h

/-- The settle expiry as the reads have left it. -/
theorem TableSteady.settleReachedAgain (hP : TableSteady P) (i : StationIx) (h : P s) :
    P (if (s.work i).settleExpiry.isSome then Machine.settleReached plain i s else s) := by
  split
  · exact hP.settleReached h
  · exact h

theorem ModeSteady.reachSettle (hM : ModeSteady P up down E) (i : StationIx) (h : P s) : P (reachSettle i s) := by
  unfold Machine.reachSettle
  split
  · exact hM.carryOut (fun _ => hM.rest.settleReachedAgain i) _ (hM.rest.passUntil _ h)
  · exact h

theorem ModeSteady.reachRound (hM : ModeSteady P up down E) (h : P s) : P (reachRound s) := by
  have hP := hM.rest
  unfold Machine.reachRound
  split
  · refine hM.judge _ (hP.checked _ _ _ (fun _ => hP.startRoundTimer) (hP.takeRound hP.checked
      (hP.checked _ _ _ (fun t ht => ?_) (hP.passUntil _ h))))
    unfold markAtRound
    split
    · split
      · exact hP.releaseMark ht
      · split
        · exact hP.link _ ht
        · exact ht
    · exact ht
  · exact h

theorem QuietSteady.leadReached (hP : QuietSteady P) (h : P s) : P (leadReached s) := by
  unfold Machine.leadReached
  split
  · split
    · exact hP.link _ h
    · exact h
  · exact h

theorem ModeSteady.reachLead (hM : ModeSteady P up down E) (h : P s) : P (reachLead s) := by
  unfold Machine.reachLead
  split
  · split
    · exact hM.carryOut (fun _ => hM.rest.quiet.leadReached) _ (hM.rest.passUntil _ h)
    · exact h
  · exact h

theorem QuietSteady.markSensed (hP : QuietSteady P) (v : Bool) (h : P s) : P (Machine.senseMark v s) :=
  hP.link _ (hP.senseMark v h)

theorem QuietSteady.markRises (hP : QuietSteady P) (h : P s) : P (markRises s) := by
  unfold Machine.markRises
  dsimp only
  split
  · exact hP.link _ (hP.markSensed true h)
  · exact hP.markSensed true h

theorem QuietSteady.markFalls (hP : QuietSteady P) (h : P s) : P (markFalls s) := by
  have sensed := hP.markSensed false h
  unfold Machine.markFalls
  dsimp only
  split
  · have linked := hP.link { (Machine.senseMark false s).link with
      state := .inStep, inStepSince := bankClock (Machine.senseMark false s) } sensed
    exact hP.raise _ _ _ _ (hP.roundTimer none linked)
  · exact sensed

theorem ModeSteady.fallOfMark (hM : ModeSteady P up down E) (h : P s) : P (fallOfMark s) := by
  have hP := hM.rest
  unfold Machine.fallOfMark
  split
  · refine hM.judge _ ?_
    have read := hP.check (fun _ => [406]) h
    split
    · exact hP.takeRound hP.checked (hP.quiet.markSensed false read)
    · exact hP.quiet.markFalls read
  · exact hM.carryOut (fun _ => hP.quiet.markFalls) _ h

theorem ModeSteady.reachLoss (hM : ModeSteady P up down E) (h : P s) : P (reachLoss s) := by
  have hP := hM.rest
  unfold Machine.reachLoss
  split
  case h_1 due _ _ =>
    split
    · refine hM.judge _ ?_
      have read := hP.check (fun _ => [403, 406]) (hP.passUntil due h)
      unfold lossReached
      split
      · split
        · exact hP.checked _ _ _ (fun t ht => hP.raise _ _ _ _ (hP.startRoundTimer ht)) (hP.endHold hP.checked (hP.link _ read))
        · exact read
      · exact read
    · exact h
  case h_2 => exact h

theorem ModeSteady.endStartGap (hM : ModeSteady P up down E) (h : P s) : P (endStartGap s) := by
  unfold Machine.endStartGap
  split
  · exact hM.carryOut (fun _ => hM.rest.grantTest) _ (hM.rest.passUntil _ h)
  · exact h

theorem TableSteady.inchPeriodReached (hP : TableSteady P) (i : StationIx) (h : P s) : P (inchPeriodReached i plain s) := by
  unfold Machine.inchPeriodReached
  split
  · split
    · split
      · exact hP.nextInchPeriod _ _ h
      · exact h
    · exact h
  · exact h

theorem ModeSteady.reachInchPeriod (hM : ModeSteady P up down E) (i : StationIx) (h : P s) : P (reachInchPeriod i s) := by
  unfold Machine.reachInchPeriod
  split
  · split
    · exact hM.carryOut (fun _ => hM.rest.inchPeriodReached i) _ (hM.rest.passUntil _ h)
    · exact h
  · exact h

theorem endInchPulse_keeps (hP : QuietSteady P) (i : StationIx) (h : P s) : P (endInchPulse i s) := by
  unfold endInchPulse
  split
  · split
    · exact hP.setMotion _ (hP.passUntil _ h)
    · exact h
  · exact h

theorem TableSteady.pauseReached (hP : TableSteady P) (i : StationIx) (h : P s) : P (pauseReached i plain s) := by
  unfold Machine.pauseReached
  split
  · split
    · split
      · exact hP.endReversal _ h
      · exact h
    · exact h
  · exact h

theorem ModeSteady.reachPauseEnd (hM : ModeSteady P up down E) (i : StationIx) (h : P s) : P (reachPauseEnd i s) := by
  unfold Machine.reachPauseEnd
  split
  · split
    · exact hM.carryOut (fun _ => hM.rest.pauseReached i) _ (hM.rest.passUntil _ h)
    · exact h
  · exact h

theorem TableSteady.timeoutReached (hP : TableSteady P) (i : StationIx) (h : P s) : P (timeoutReached i plain s) := by
  unfold Machine.timeoutReached
  split
  · split
    · exact hP.timeoutMotion h
    · exact h
  · exact h

theorem ModeSteady.reachTimeout (hM : ModeSteady P up down E) (i : StationIx) (h : P s) : P (reachTimeout i s) := by
  unfold Machine.reachTimeout
  split
  · exact hM.carryOut (fun _ => hM.rest.timeoutReached i) _ (hM.rest.passUntil _ h)
  · exact h

theorem ModeSteady.reachPersistence (hM : ModeSteady P up down E) (h : P s) : P (reachPersistence s) := by
  unfold Machine.reachPersistence
  split
  · split
    · exact h
    · refine hM.judgeFound _ ?_
      have read := hM.rest.checked.nothing (fun _ => [404, 405])
        (hM.rest.passUntil (‹Nat› + persistenceOf s.settings.trip.persistence) h)
      unfold persistenceReached
      dsimp only
      split
      · exact hM.tripAndRefresh _ read
      · exact read
  · exact h

theorem QuietSteady.nextScrub (hP : QuietSteady P) (w : Nat) (h : P s) : P (nextScrub w s) :=
  hP.marks _ rfl rfl (fun ⟨_, hr⟩ => ⟨Nat.mod_lt _ (by decide), hr⟩) h

theorem ModeSteady.scrub (hM : ModeSteady P up down E) (h : P s) : P (scrub s) :=
  hM.carryOut (fun _ => hM.rest.quiet.nextScrub _) _ (hM.rest.passUntil _ h)

theorem writeBack_keeps (hP : QuietSteady P) (w : WordIx) (h : P s) : P (writeBack w s) := by
  unfold writeBack
  split
  · exact hP.rewriteWords _ h
  · exact h

theorem endTripPulse_keeps (hP : QuietSteady P) (h : P s) : P (endTripPulse s) := by
  unfold endTripPulse
  split
  · exact hP.releaseLine (hP.passUntil _ h)
  · exact h

theorem endBlinkDrop_keeps (hP : QuietSteady P) (h : P s) : P (endBlinkDrop s) := by
  unfold endBlinkDrop
  split
  · exact hP.events _ id (hP.passUntil _ h)
  · exact h

theorem endMarkPulse_keeps (hP : QuietSteady P) (h : P s) : P (endMarkPulse s) := by
  unfold endMarkPulse
  split
  · exact hP.link _ (hP.passUntil _ h)
  · exact h

/-! ### Frames -/

theorem beginFrame_keeps (hP : QuietSteady P) (p : Port) (kind : Byte) (body : List Byte) (h : P s) :
    P (beginFrame p kind body s) := hP.setPort _ _ h

theorem beginReply_keeps (hP : QuietSteady P) (p : Port) (h : P s) : P (beginReply p s) := by
  unfold beginReply
  split
  · split
    · exact h
    · exact hP.setPort _ _ (beginFrame_keeps hP _ _ _ (hP.passUntil _ h))
  · exact h

theorem endReply_keeps (hP : QuietSteady P) (p : Port) (h : P s) : P (endReply p s) := by
  unfold endReply
  split
  · split
    · exact hP.restartDue _ (hP.setPort _ _ (hP.passUntil _ h))
    · exact h
  · exact h

theorem beginNotice_keeps (hP : QuietSteady P) (h : P s) : P (beginNotice s) := by
  unfold beginNotice
  split
  case h_1 n rest _ hn =>
    refine beginFrame_keeps hP _ _ _ (hP.passUntil _ (hP.events _ (fun ⟨hb, hl⟩ => ⟨hb, ?_⟩) h))
    rw [hn] at hl
    exact ⟨(List.nodup_cons.1 hl.1).2, fun m hm => hl.2 m (List.mem_cons_of_mem _ hm)⟩
  case h_2 => exact h

theorem beginCopy_keeps (hP : QuietSteady P) (h : P s) : P (beginCopy s) := by
  unfold beginCopy
  split
  case h_1 c rest _ hc =>
    refine beginFrame_keeps hP _ _ _ (hP.passUntil _ (hP.events _ (fun ⟨⟨hq, ho, hb, hd⟩, hn⟩ => ⟨⟨hq, ho, ?_, hd⟩, hn⟩) h))
    rw [hc] at hb
    exact Nat.le_of_succ_le hb
  case h_2 => exact h

theorem takeUnknown_keeps (hP : QuietSteady P) (kind : Byte) (r : Request) (h : P s) : P (takeUnknown kind r s) := by
  have got : P (received r.port s) := hP.setPort _ _ h
  unfold takeUnknown
  dsimp only
  split
  · split
    · exact hP.setPort _ _ got
    · exact got
  · exact got
  · exact got

/-! ### Every command -/

theorem exec_frameSilenceTimeout (p : Port) (bytes : List Byte) (s : State) : exec (.frameSilenceTimeout p bytes) s =
    perform (fun u => (receive p bytes u).setPort p
      { (receive p bytes u).port p with receiver := ((receive p bytes u).port p).receiver.silence }) s := rfl

/-- Every command that answers a next state keeps the property, a loss of power where that leaves it standing. -/
theorem ModeSteady.exec (hM : ModeSteady P up down E) {c : Instr} (hE : (∃ r, c = .run r ∨ c = .resume r) → E)
    (hL : c = .powerLoss → P (losePower s)) {t : State} (h : P s) (ht : exec c s = .next t) : P t := by
  have hP := hM.rest
  cases hc : requestOf c with
  | some a =>
    rw [exec_of_request hc] at ht
    exact perform_keeps (hM.takeRequest (hM.row hE hc) a.2) h ht
  | none =>
    cases c <;> simp only [requestOf, reduceCtorEq] at hc
    case unknownKind kind r => exact perform_keeps (takeUnknown_keeps hP.quiet kind r) h ht
    case coldRestart =>
      obtain rfl : coldRestart s = t := by simpa [Machine.exec, execColdRestart] using ht
      exact hM.cold h
    case warmRestart =>
      refine perform_keeps (fun h => ?_) h ht
      split
      · exact hM.warmRestart h
      · exact h
    case frameSilenceTimeout p bytes =>
      rw [exec_frameSilenceTimeout] at ht
      exact perform_keeps (fun h => hP.setPort _ _ (hP.setPort _ _ h)) h ht
    case frameCheckFail p bytes => exact perform_keeps (hP.setPort _ _) h ht
    case reply p => exact perform_keeps (beginReply_keeps hP.quiet p) h ht
    case replySent p => exact perform_keeps (endReply_keeps hP.quiet p) h ht
    case notice => exact perform_keeps (beginNotice_keeps hP.quiet) h ht
    case eventCopy => exact perform_keeps (beginCopy_keeps hP.quiet) h ht
    case conversion codes => exact perform_keeps (hM.conversion codes) h ht
    case changeoverEnd => exact perform_keeps (endChangeover_keeps hP.quiet) h ht
    case purgeEnd flow fault => exact perform_keeps (hM.endPurge flow fault) h ht
    case reading fault => exact perform_keeps (hM.nextReading fault) h ht
    case settleExpiry i => exact perform_keeps (hM.reachSettle i) h ht
    case roundTimerExpiry => exact perform_keeps hM.reachRound h ht
    case markLead => exact perform_keeps hM.reachLead h ht
    case markPulseEnd => exact perform_keeps (endMarkPulse_keeps hP.quiet) h ht
    case markRise =>
      replace ht : execMarkRise s = .next t := ht
      unfold execMarkRise at ht
      split at ht
      · cases ht; exact h
      · split at ht
        · exact perform_keeps (hM.carryOut (fun _ => hP.quiet.markRises) _) h ht
        · cases ht; exact hP.pins _ h
    case markFall =>
      replace ht : execMarkFall s = .next t := ht
      unfold execMarkFall at ht
      split at ht
      · cases ht; exact h
      · split at ht
        · exact perform_keeps hM.fallOfMark h ht
        · cases ht; exact hP.pins _ h
    case linkLost => exact perform_keeps hM.reachLoss h ht
    case startGapEnd => exact perform_keeps hM.endStartGap h ht
    case inchPeriod i => exact perform_keeps (hM.reachInchPeriod i) h ht
    case inchPulseEnd i => exact perform_keeps (endInchPulse_keeps hP.quiet i) h ht
    case reversalPauseEnd i => exact perform_keeps (hM.reachPauseEnd i) h ht
    case timeout i => exact perform_keeps (hM.reachTimeout i) h ht
    case persistenceExpiry => exact perform_keeps hM.reachPersistence h ht
    case pumpRunContact v => exact perform_keeps (hM.judge s) (hP.pins { s.pins with pumpOpen := v } h) ht
    case arrestorContact v => exact perform_keeps (hM.judge s) (hP.pins { s.pins with arrestorClosed := v } h) ht
    case tripLineSensed v => exact perform_keeps (hM.judge s) (hP.pins { s.pins with tripLineOthers := v } h) ht
    case tripPulseEnd => exact perform_keeps (endTripPulse_keeps hP.quiet) h ht
    case scrub => exact perform_keeps hM.scrub h ht
    case writeBack w => exact perform_keeps (writeBack_keeps hP.quiet w) h ht
    case blinkDropEnd => exact perform_keeps (endBlinkDrop_keeps hP.quiet) h ht
    case frameLengthDiscard p a k l => exact perform_keeps (hP.setPort _ _) h ht
    case frameIgnored p a k b => exact perform_keeps (hP.setPort _ _) h ht
    case powerLoss =>
      obtain rfl : losePower s = t := by simpa [Machine.exec, execPowerLoss] using ht
      exact hL rfl

/-- So does every step, where the property does not speak of the queue of commands. -/
theorem ModeSteady.step (hM : ModeSteady P up down True) (hq : ∀ {s} q, P s → P { s with pending := q })
    (hL : ∀ {s}, P s → P (losePower s)) {t : State} (h : P s) (ht : step s = .next t) : P t := by
  unfold Machine.step at ht
  split at ht
  · obtain rfl : tick s = t := by simpa using ht
    unfold tick
    split
    · exact hM.rest.passUntil _ h
    · exact h
  · exact hM.exec (fun _ => trivial) (fun _ => hL (hq _ h)) (hq _ h) ht

end Commands

end Sys2Proof.Proofs
end

section
/-! The invariants of Safety that speak of the blocks outside the station table, and the two rules over all commands that do:
each stands behind the elementary changes by `PartSteady.of_blocks`, and behind the changes of mode and the restarts by what
these write. -/

namespace Sys2Proof.Proofs

open Sys2Proof Sys2Proof.Machine Sys2Proof.Laws

/-! ### The isolation line (R150) -/

theorem isolation_modeSteady : ModeSteady IsolationFollowsMode IsolationFollowsMode IsolationFollowsMode True := by
  have rest : PartSteady IsolationFollowsMode := .of_blocks fun h hs => by
    rw [IsolationFollowsMode, h.mode, h.isolation]
    exact hs
  refine ⟨rest, rest, rest, ?trip, ?started, ?running, ?resuming, ?stopping, ?leaving, ?stopped, ?cold, ?warm⟩
  case started =>
    intro s h
    rw [startSampler_samplerOnly s]
    exact h
  case stopped => exact fun _ h => h
  case trip => exact fun _ _ => by simp [IsolationFollowsMode, tripUnit, setMode]
  all_goals intros; simp [IsolationFollowsMode, setMode, leaveTripped, State.cold, warmRestartBare, BankControl.cold]

/-- Settles O4: the line is written with the mode alone, in `setMode` and by the restarts. -/
theorem stepKeepsIsolation : Obligations.StepKeepsIsolation := by
  unfold Obligations.StepKeepsIsolation
  exact fun _ _ => isolation_modeSteady.step (fun _ h => h) isolation_modeSteady.cold

theorem released_modeSteady : ModeSteady (fun s => s.bank.isolation = false) (fun s => s.bank.isolation = false)
    (fun s => s.bank.isolation = false) False := by
  have rest : PartSteady fun s => s.bank.isolation = false := .of_blocks fun h hs => h.isolation.trans hs
  refine ⟨rest, rest, rest, ?trip, ?started, False.elim, False.elim, ?stopping, ?leaving, ?stopped, ?cold, ?warm⟩
  case started =>
    intro s h
    rw [startSampler_samplerOnly s]
    exact h
  case stopped => exact fun _ h => h
  case trip => exact fun _ _ => by simp [tripUnit, setMode]
  all_goals intros; simp [setMode, leaveTripped, State.cold, warmRestartBare, BankControl.cold]

/-- Settles O14: RELEASED stands behind every command for which the mode cannot become RUNNING. -/
theorem isolationEnergisedByModeRequests : Obligations.IsolationEnergisedByModeRequests := by
  unfold Obligations.IsolationEnergisedByModeRequests
  intro c s t ht released energised
  by_contra other
  have : t.bank.isolation = false := released_modeSteady.exec other (fun _ => rfl) released ht
  simp [energised] at this

/-! ### The event unit (R196, R203) -/

theorem setMode_sound (m : BankMode) {s : State} (h : EventUnitSound s.events) : EventUnitSound (setMode m s).events :=
  (raise_blocks ..).events h

theorem cold_events_sound : EventUnitSound EventUnit.cold :=
  ⟨by decide, List.nodup_nil, by simp [EventUnit.cold]⟩

theorem events_modeSteady : ModeSteady (fun s => EventUnitSound s.events) (fun s => EventUnitSound s.events)
    (fun s => EventUnitSound s.events) True := by
  have rest : PartSteady fun s => EventUnitSound s.events := .of_blocks fun h => h.events
  refine ⟨rest, rest, rest, ?trip, ?started, ?running, ?resuming, ?stopping, ?leaving, ?stopped, ?cold, ?warm⟩
  case trip =>
    intro s o h
    exact (raise_blocks ..).events (setMode_sound .tripped (s := { s with
      trip := { s.trip with latch := latchOf s o, record := some (tripRecordOf s o), timer := none } }) h)
  case started =>
    intro s h
    rw [startSampler_samplerOnly s]
    exact h
  case running => exact fun _ _ h => setMode_sound _ h
  case resuming => exact fun _ _ h => setMode_sound _ h
  case stopping => exact fun _ h => setMode_sound _ h
  case leaving => exact fun _ h => setMode_sound _ h
  case stopped => exact fun _ h => h
  all_goals exact fun _ => cold_events_sound

/-- Settles O5, with `take_keeps` for an event that is raised. -/
theorem stepKeepsEventUnit : Obligations.StepKeepsEventUnit := by
  unfold Obligations.StepKeepsEventUnit
  exact fun s _ hb hn => events_modeSteady.step (fun _ h => h) (fun _ => cold_events_sound) (s := s) ⟨hb, hn⟩

/-! ### The sampler (R53, R54, R62) -/

/-- A sampler that leaves STOPPED has no sample, and begins none but by a selection. -/
theorem startSampler_phased {s : State} (h : FlightPhased s.sampler) :
    FlightPhased (startSampler plain s).sampler ∧ (startSampler plain s).sampler.phase ≠ .stopped := by
  unfold startSampler
  split
  case isFalse awake => exact ⟨h, awake⟩
  case isTrue stopped =>
    have empty : s.sampler.inFlight = none := by simpa [FlightPhased, stopped] using h
    split
    · exact ⟨by simp [FlightPhased, empty], by simp⟩
    · have free : FlightPhased { s.sampler with phase := .idle } := by simp [FlightPhased, empty]
      have chosen := (select_step { s with sampler := { s.sampler with phase := .idle } }).phased free
      exact ⟨chosen.1, fun e => by simpa using chosen.2.1 e⟩

theorem startSampler_counts {s : State} (h : SamplerCounts s.sampler) : SamplerCounts (startSampler plain s).sampler := by
  unfold startSampler
  split
  · split
    · exact h
    · exact (select_step { s with sampler := { s.sampler with phase := .idle } }).counts h
  · exact h

theorem phased_modeSteady : ModeSteady SamplerPhased (fun s => FlightPhased s.sampler ∧ s.bank.mode ≠ .idle)
    (fun s => FlightPhased s.sampler ∧ s.bank.mode = .idle) True where
  rest := .of_blocks fun h hs => ⟨(h.phased hs.1).1, by rw [h.mode]; exact (h.phased hs.1).2.trans hs.2⟩
  rising := .of_blocks fun h hs => ⟨(h.phased hs.1).1, by rw [h.mode]; exact hs.2⟩
  falling := .of_blocks fun h hs => ⟨(h.phased hs.1).1, by rw [h.mode]; exact hs.2⟩
  trip o h := ⟨h.1, by simp [tripUnit, setMode]⟩
  started {s} h := by
    have woken := startSampler_phased h.1
    refine ⟨woken.1, fun e => absurd e woken.2, fun e => absurd e ?_⟩
    rw [startSampler_samplerOnly s]
    exact h.2
  running _ _ h := ⟨h.1, by simp [setMode]⟩
  resuming {s} _ hm h := by
    refine ⟨h.1, ?_⟩
    have awake : s.sampler.phase ≠ .stopped := fun e => by simpa [hm] using h.2.1 e
    simp [setMode, leaveTripped, awake]
  stopping _ h := ⟨h.1, by simp [setMode]⟩
  leaving _ h := ⟨h.1, by simp [setMode, leaveTripped]⟩
  stopped ws h := by simp [SamplerPhased, stopSampler, rewriteWords, h.2]
  cold _ := by simp [SamplerPhased, State.cold, Sampler.cold, BankControl.cold]
  warm _ := by simp [SamplerPhased, warmRestartBare, Sampler.cold, BankControl.cold]

theorem counts_modeSteady : ModeSteady (fun s => SamplerCounts s.sampler) (fun s => SamplerCounts s.sampler)
    (fun s => SamplerCounts s.sampler) True := by
  have rest : PartSteady fun s => SamplerCounts s.sampler := .of_blocks fun h => h.counts
  have cold (entries : SweepEntries) (classes : Vector LineClass 19) : SamplerCounts (Sampler.cold entries classes) := by
    simp [SamplerCounts, Sampler.cold]
  exact ⟨rest, rest, rest, fun _ h => h, startSampler_counts, fun _ _ h => h, fun _ _ h => h, fun _ h => h, fun _ h => h,
    fun _ h => h, fun _ => cold _ _, fun _ => cold _ _⟩

/-- Settles O6: the phase by the sampler's elementary changes, the length of the sweep list by its layout. -/
theorem stepKeepsSampler : Obligations.StepKeepsSampler := by
  unfold Obligations.StepKeepsSampler
  refine fun s t ht => ⟨fun h => phased_modeSteady.step (fun _ h => h) phased_modeSteady.cold h ht, fun ⟨hl, hn, _, hp, hf⟩ => ?_⟩
  obtain ⟨hl', hn', hp', hf'⟩ := counts_modeSteady.step (fun _ h => h) counts_modeSteady.cold (s := s) ⟨hl, hn, hp, hf⟩ ht
  exact ⟨hl', hn', sweepList_length _, hp', hf'⟩

/-! ### The trip unit (R169, R172 to R174) -/

theorem latchOf_ne_clear (s : State) (o : TripOrigin) : latchOf s o ≠ .clear := by
  unfold latchOf
  dsimp only
  split <;> simp

theorem tripLines_modeSteady : ModeSteady TripSound TripSound TripSound True := by
  have rest : PartSteady TripSound := .of_blocks fun {s t} h ⟨hlatch, hdrive, hline, htimer⟩ => by
    refine ⟨by rw [h.trip.latch, h.mode]; exact hlatch, by rw [h.trip.linkDrive, h.trip.latch]; exact hdrive, fun hm => ?_,
      fun hm => ?_⟩
    · rcases h.trip.line with e | e
      · rw [e]; exact hline (h.mode ▸ hm)
      · exact e
    · rcases h.trip.timer with e | e | e
      · rw [e]; exact htimer (h.mode ▸ hm)
      · exact e
      · exact absurd (h.mode ▸ hm) e
  have clear {s : State} {m : BankMode} (hm : m ≠ .tripped) (hmode : s.bank.mode ≠ .tripped) (h : TripSound s) :
      TripSound (setMode m s) := by
    obtain ⟨hlatch, hdrive, hline, -⟩ := h
    exact ⟨iff_of_true (hlatch.2 hmode) hm, hdrive, fun _ => hline hmode, fun e => absurd e hm⟩
  have left {m : BankMode} (hm : m ≠ .tripped) (s : State) : TripSound (leaveTripped (setMode m s)) :=
    ⟨iff_of_true rfl hm, by simp [leaveTripped], fun _ => rfl, fun e => absurd e hm⟩
  refine ⟨rest, rest, rest, ?trip, ?started, ?running, ?resuming, ?stopping, ?leaving, ?stopped, ?cold, ?warm⟩
  case trip =>
    exact fun {s} o _ => ⟨iff_of_false (latchOf_ne_clear s o) (by simp [tripUnit, setMode]),
      decide_eq_true_iff, fun e => absurd rfl e, fun _ => rfl⟩
  case started =>
    intro s h
    rw [startSampler_samplerOnly s]
    exact h
  case running => exact fun {s} _ hm h => clear (by simp) (by simp [hm]) h
  case resuming => exact fun _ _ _ => left (by simp) _
  case stopping => exact fun {s} hm h => clear (by simp) (by simp [hm]) h
  case leaving => exact fun _ _ => left (by simp) _
  case stopped => exact fun _ h => h
  all_goals intros; simp [TripSound, State.cold, warmRestartBare, BankControl.cold, TripUnit.cold]

/-- Settles O7. -/
theorem stepKeepsTripLines : Obligations.StepKeepsTripLines := by
  unfold Obligations.StepKeepsTripLines
  exact fun _ _ => tripLines_modeSteady.step (fun _ h => h) tripLines_modeSteady.cold

/-! ### The drive (R121, R124, R141, R145) -/

/-- Few wrong bits, and the lists and the slot count of the drive in their bounds. -/
def DriveBounded (s : State) : Prop :=
  FewWrongBits s ∧ DriveListed s.drive ∧ s.settings.bank.slotCount ≤ 4

theorem driveBounded_of_step {s t : State} (h : BlocksStep s t) (hs : DriveBounded s) : DriveBounded t := by
  obtain ⟨few, listed, slots⟩ := hs
  exact ⟨h.memory.few few, (h.drive few).listed listed slots, (h.slots few).elim (fun e => e ▸ slots) id⟩

theorem warm_few {m : Memory} (code : Nat) (h : FewWrong m.wrongBits) : FewWrong (m.warm code).wrongBits := by
  have rewritten : (m.warm code).wrongBits = (allWorkWords.foldl Memory.rewrite m).wrongBits := by simp only [Memory.warm]
  rw [rewritten]
  exact (rewrites_step allWorkWords m).few h

theorem drive_modeSteady : ModeSteady (fun s => DriveBounded s ∧ (s.bank.mode = .idle → s.drive.motions = []))
    (fun s => DriveBounded s ∧ (s.bank.mode = .idle → s.drive.motions = [])) DriveBounded True := by
  have rest : PartSteady fun s => DriveBounded s ∧ (s.bank.mode = .idle → s.drive.motions = []) :=
    .of_blocks fun h ⟨hb, hi⟩ => ⟨driveBounded_of_step h hb, fun hm => (h.drive hb.1).idle (h.mode ▸ hm) (hi (h.mode ▸ hm))⟩
  have cold : DriveListed Drive.cold := by simp [DriveListed, Drive.cold]
  have slots : Settings.default.bank.slotCount ≤ 4 := by decide
  refine ⟨rest, rest, .of_blocks driveBounded_of_step, ?trip, ?started, ?running, ?resuming, ?stopping, ?leaving, ?stopped,
    ?cold, ?warm⟩
  case trip => exact fun o h => ⟨h.1, fun e => by simp [tripUnit, setMode] at e⟩
  case started =>
    intro s h
    rw [startSampler_samplerOnly s]
    exact h
  case running => exact fun _ _ h => ⟨h.1, fun e => by simp [setMode] at e⟩
  case resuming => exact fun _ _ h => ⟨h.1, fun e => by simp [setMode, leaveTripped] at e⟩
  case stopping => exact fun _ h => h.1
  case leaving => exact fun _ h => h.1
  case stopped =>
    intro s ws ⟨few, _, slots⟩
    exact ⟨⟨(rewrites_step ws s.memory).few few, by simp [stopSampler, rewriteWords, DriveListed], slots⟩, fun _ => rfl⟩
  case cold => exact fun _ => ⟨⟨by simp [FewWrongBits, State.cold, Memory.cold], cold, slots⟩, fun _ => rfl⟩
  case warm => exact fun h => ⟨⟨warm_few _ h.1.1, cold, h.1.2.2⟩, fun _ => rfl⟩

/-- Settles O8: a grant tests mode and slots, and a move request looks for the station's entry and motion first. -/
theorem stepKeepsDrive : Obligations.StepKeepsDrive := by
  unfold Obligations.StepKeepsDrive
  intro s t few ⟨hn, hl, hslots, hidle⟩ ht
  obtain ⟨⟨few', ⟨hn', hl'⟩, hslots'⟩, hidle'⟩ :=
    drive_modeSteady.step (fun _ h => h) drive_modeSteady.cold (s := s) ⟨⟨few, ⟨hn, hl⟩, hslots⟩, hidle⟩ ht
  exact ⟨few', hn', hl', hslots', hidle'⟩

/-! ### The memory (R185, R191) -/

theorem warm_ranges {m : Memory} (code : Nat) (h : MemoryRanges m) : MemoryRanges (m.warm code) := by
  have kept := (rewrites_step allWorkWords m).ranges h
  generalize hr : allWorkWords.foldl Memory.rewrite m = r at kept
  obtain ⟨-, rest⟩ := kept
  simp only [MemoryRanges, Memory.warm, hr]
  exact ⟨by decide, rest⟩

theorem memory_modeSteady : ModeSteady MemorySound MemorySound MemorySound True := by
  have rest : PartSteady MemorySound := .of_blocks fun h ⟨wf, ranges⟩ => ⟨h.memory.wf wf, h.memory.ranges ranges⟩
  have cold (p : Pins) (q : List Instr) : MemorySound (State.cold p q) :=
    ⟨cold_wf p q, by simp [State.cold, Memory.cold]⟩
  refine ⟨rest, rest, rest, fun _ h => h, ?started, fun _ _ h => h, fun _ _ h => h, fun _ h => h, fun _ h => h, ?stopped,
    fun {s} _ => cold s.pins s.pending, ?warm⟩
  case started =>
    intro s h
    rw [startSampler_samplerOnly s]
    exact h
  case stopped =>
    intro s ws ⟨wf, ranges⟩
    exact ⟨(rewrites_step ws s.memory).wf wf, (rewrites_step ws s.memory).ranges ranges⟩
  case warm =>
    exact fun ⟨wf, ranges⟩ => ⟨warm_wf _ wf, warm_ranges _ ranges⟩

/-- Settles O9. -/
theorem stepKeepsMemory : Obligations.StepKeepsMemory := by
  unfold Obligations.StepKeepsMemory
  exact fun _ _ => memory_modeSteady.step (fun _ h => h) memory_modeSteady.cold

/-! ### The queue of commands -/

theorem pending_modeSteady (q : List Instr) :
    ModeSteady (fun s => s.pending = q) (fun s => s.pending = q) (fun s => s.pending = q) True := by
  have rest : PartSteady fun s => s.pending = q := .of_blocks fun h hs => h.pending.trans hs
  refine ⟨rest, rest, rest, fun _ h => h, ?started, fun _ _ h => h, fun _ _ h => h, fun _ h => h, fun _ h => h,
    fun _ h => h, id, id⟩
  intro s h
  rw [startSampler_samplerOnly s]
  exact h

/-- Settles O13. -/
theorem commandsKeepQueue : Obligations.CommandsKeepQueue := by
  unfold Obligations.CommandsKeepQueue
  exact fun c s t ht => (pending_modeSteady s.pending).exec (fun _ => trivial) (fun _ => rfl) rfl ht

end Sys2Proof.Proofs
end

section
/-! The station table as the manual keeps it (R3, R8, R10), as a property of each station's record. -/

namespace Sys2Proof.Proofs

open Sys2Proof Sys2Proof.Machine Sys2Proof.Laws

/-- One station's part of `TableSound` but for its target. -/
structure RecordKept (c : StationConfig) (w : StationWork) : Prop where
  complete : w.state.assigned = true → w.damaged = false → c.complete = true
  damaged : w.damaged = true → ∃ cause, w.state = .faulted cause
  run : w.recoveryRun ≤ c.recoveryCount
  idle : w.state ≠ .quarantined → w.recoveryRun = 0

/-- One station's part of `TableSound`. -/
structure RecordSound (c : StationConfig) (w : StationWork) : Prop extends RecordKept c w where
  target : w.target = clampTarget c w.state w.target

/-- The memory and every record as `TableSound` has them. -/
def RecordsSound (s : State) : Prop :=
  s.memory.wf = true ∧ FewWrong s.memory.wrongBits ∧ ∀ j : StationIx, RecordSound (s.cfg j) (s.work j)

theorem tableSound_iff {s : State} : TableSound s ↔ RecordsSound s :=
  ⟨fun h => ⟨h.memory, h.few, fun j => ⟨⟨h.complete j, h.damaged j, (h.runs j).1, (h.runs j).2⟩, h.targets j⟩⟩,
    fun ⟨wf, few, h⟩ => ⟨wf, few, fun j => (h j).complete, fun j => (h j).damaged, fun j => (h j).target,
      fun j => ⟨(h j).run, (h j).idle⟩⟩⟩

section Records

variable {s t : State} {c : StationConfig} {w : StationWork} {i : StationIx}

/-- Where no station but one changes, that one is left to look at. -/
theorem recordsSound_of_one (h : RecordsSound s) (hm : MemoryStep s.memory t.memory)
    (hcfg : ∀ j, j ≠ i → t.cfg j = s.cfg j) (hwork : ∀ j, j ≠ i → t.work j = s.work j)
    (hi : RecordSound (s.cfg i) (s.work i) → RecordSound (t.cfg i) (t.work i)) : RecordsSound t := by
  obtain ⟨wf, few, each⟩ := h
  refine ⟨hm.wf wf, hm.few few, fun j => ?_⟩
  by_cases hj : j = i
  · subst hj
    exact hi (each j)
  · rw [hcfg j hj, hwork j hj]
    exact each j

theorem recordsSound_setWork (h : RecordsSound s) (hi : RecordSound (s.cfg i) (s.work i) → RecordSound (s.cfg i) w) :
    RecordsSound (s.setWork i w) :=
  recordsSound_of_one h (.refl _) (fun _ _ => setWork_cfg ..) (fun _ hj => setWork_work_other _ _ hj) fun r => by
    rw [setWork_cfg, setWork_work_same]
    exact hi r

theorem recordsSound_congr (h : RecordsSound s) (hm : MemoryStep s.memory t.memory) (hst : t.stations = s.stations) :
    RecordsSound t := by
  have cfg (j : StationIx) : t.cfg j = s.cfg j := by rw [State.cfg, State.cfg, State.station, State.station, hst]
  have work (j : StationIx) : t.work j = s.work j := by rw [State.work, State.work, State.station, State.station, hst]
  exact recordsSound_of_one (i := 0) h hm (fun j _ => cfg j) (fun j _ => work j) fun r => by rwa [cfg, work]

theorem clampTarget_clampTarget (c : StationConfig) (st : StationState) (r : Nat) :
    clampTarget c st (clampTarget c st r) = clampTarget c st r := by
  cases st <;> simp only [clampTarget]
  split
  · rfl
  · omega

theorem clampTarget_inactive {st : StationState} (h : st.active = false) (r : Nat) : clampTarget c st r = 0 := by
  cases st <;> simp_all [StationState.active, clampTarget]

/-! ### Target changes (R10, R11) -/

theorem aimed_cfg (i j : StationIx) (r : Nat) (s : State) : (aimed i r s).cfg j = s.cfg j := by
  unfold aimed
  split
  · rfl
  · exact setWork_cfg ..

theorem aimed_work_other {j : StationIx} (hj : j ≠ i) (r : Nat) (s : State) : (aimed i r s).work j = s.work j := by
  unfold aimed
  split
  · rfl
  · exact setWork_work_other _ _ hj

theorem aimed_memory (i : StationIx) (r : Nat) (s : State) : (aimed i r s).memory = s.memory := by
  unfold aimed
  split <;> rfl

/-- A target change leaves a clamped target, whatever stood before. -/
theorem aimed_sound (r : Nat) (h : RecordKept (s.cfg i) (s.work i)) :
    RecordSound ((aimed i r s).cfg i) ((aimed i r s).work i) := by
  rw [aimed_cfg]
  unfold aimed
  split
  case isTrue same => exact ⟨h, by rw [← same, clampTarget_clampTarget]⟩
  case isFalse =>
    rw [setWork_work_same]
    exact ⟨⟨h.complete, h.damaged, h.run, h.idle⟩, (clampTarget_clampTarget ..).symm⟩

/-- A change of one station's record that a target change follows. -/
theorem recordsSound_aimed (r : Nat) (h : RecordsSound s) (hm : MemoryStep s.memory t.memory)
    (hcfg : ∀ j, j ≠ i → t.cfg j = s.cfg j) (hwork : ∀ j, j ≠ i → t.work j = s.work j)
    (hi : RecordSound (s.cfg i) (s.work i) → RecordKept (t.cfg i) (t.work i)) : RecordsSound (aimed i r t) :=
  recordsSound_of_one h (aimed_memory i r t ▸ hm) (fun j hj => (aimed_cfg i j r t).trans (hcfg j hj))
    (fun _ hj => (aimed_work_other hj r t).trans (hwork _ hj)) fun k => aimed_sound r (hi k)

/-! ### Changes of state -/

theorem enters_kept {new : StationState} (he : Enters s i new w) (h : RecordSound (s.cfg i) (s.work i)) :
    RecordKept (s.cfg i) { w with state := new } where
  complete _ hd := h.complete he.assigned (he.damaged.symm.trans hd)
  damaged hd := by
    have marked : (s.work i).damaged = true := he.damaged.symm.trans hd
    obtain ⟨cause, faulted⟩ := h.damaged marked
    exact absurd faulted (he.marked marked cause)
  run := by rcases he.run with e | ⟨e, -⟩ <;> simp only [e]; exacts [Nat.zero_le _, h.run]
  idle _ := by rcases he.run with e | ⟨e, hq⟩ <;> simp only [e]; exact h.idle hq

theorem enterState_memory (i : StationIx) (new : StationState) (l : List WorkField) (f : StationWork → StationWork)
    (s : State) : (enterState plain i new l f s).memory = s.memory := (enterState_table s i new l f).memory

theorem standDown_memory (i : StationIx) (s : State) : (standDown i plain s).memory = s.memory := by
  rw [standDown_plain]
  split <;> rfl

theorem standDown_cfg (i j : StationIx) (s : State) : (standDown i plain s).cfg j = s.cfg j := by
  rw [standDown_plain]
  split <;> exact setWork_cfg ..

theorem standDown_work_other {j : StationIx} (hj : j ≠ i) (s : State) : (standDown i plain s).work j = s.work j := by
  rw [standDown_plain]
  split <;> exact setWork_work_other _ _ hj

theorem standDown_work_same (i : StationIx) (s : State) : (standDown i plain s).work i =
    if (s.work i).state.active then
      { (s.work i).closed with state := .standby, restartMark := true, recoveryRun := 0 } else (s.work i).closed := by
  rw [standDown_plain]
  split <;> exact setWork_work_same ..

theorem closed_target (w : StationWork) : w.closed.target = 0 := by
  unfold StationWork.closed
  split <;> simp_all

theorem closed_fields (w : StationWork) : w.closed.state = w.state ∧ w.closed.damaged = w.damaged ∧
    w.closed.recoveryRun = w.recoveryRun := by
  unfold StationWork.closed
  split <;> simp

theorem standDown_sound (h : RecordSound c w) : RecordSound c
    (if w.state.active then { w.closed with state := .standby, restartMark := true, recoveryRun := 0 } else w.closed) := by
  obtain ⟨hs, hd, hr⟩ := closed_fields w
  split
  case isTrue ha =>
    refine ⟨⟨fun _ d => h.complete (assigned_of_active ha) (hd.symm.trans d), fun d => ?_, Nat.zero_le _, fun _ => rfl⟩,
      closed_target w⟩
    obtain ⟨cause, hc⟩ := h.damaged (hd.symm.trans d)
    simp [hc, StationState.active] at ha
  case isFalse ha =>
    refine ⟨⟨?_, ?_, ?_, ?_⟩, ?_⟩
    · rw [hs, hd]; exact h.complete
    · rw [hs, hd]; exact h.damaged
    · rw [hr]; exact h.run
    · rw [hs, hr]; exact h.idle
    · rw [hs, closed_target, clampTarget_inactive (by simpa using ha)]

/-! ### Damage (R27) -/

/-- The cold working part of a state that needs no configuration, or has one. -/
theorem cold_sound {st : StationState} {d : Bool} (hst : st.active = false)
    (hc : st.assigned = true → d = false → c.complete = true) (hd : d = true → ∃ cause, st = .faulted cause)
    (hw : w.state = st ∧ w.damaged = d ∧ w.target = 0 ∧ w.recoveryRun = 0) : RecordSound c w := by
  obtain ⟨rfl, rfl, ht, hr⟩ := hw
  refine ⟨⟨hc, hd, ?_, fun _ => hr⟩, ?_⟩
  · rw [hr]; exact Nat.zero_le _
  · rw [ht, clampTarget_inactive hst]

theorem chill_quiet (l : List WorkField) (h : w.target = 0 ∧ w.recoveryRun = 0) :
    (l.foldl StationWork.chill w).target = 0 ∧ (l.foldl StationWork.chill w).recoveryRun = 0 := by
  induction l generalizing w with
  | nil => exact h
  | cons f rest ih =>
    refine ih ?_
    cases f
    case target => exact ⟨rfl, h.2⟩
    case recoveryRun => exact ⟨h.1, rfl⟩
    all_goals exact h

theorem unassigned_iff {st : StationState} : st.assigned = false ↔ st = .unused := by
  cases st <;> simp [StationState.assigned]

/-- What is known of the record of an UNUSED station. -/
theorem unused_quiet (h : RecordSound c w) (hu : w.state = .unused) :
    w.damaged = false ∧ w.target = 0 ∧ w.recoveryRun = 0 := by
  refine ⟨?_, ?_, h.idle (by simp [hu])⟩
  · by_contra hd
    obtain ⟨cause, hc⟩ := h.damaged (by simpa using hd)
    simp [hu] at hc
  · rw [h.target, hu]
    rfl

theorem recordLost_fields (i : StationIx) (k : Nat) (s : State) :
    (∀ j, j ≠ i → (recordLost i k s).cfg j = s.cfg j ∧ (recordLost i k s).work j = s.work j) ∧
      (recordLost i k s).work i = { (s.work i).afterDamage with state := .faulted .record, damaged := true } := by
  unfold recordLost
  rw [abandonFor_samplerOnly]
  refine ⟨fun j hj => ⟨?_, ?_⟩, ?_⟩
  · exact (setWork_cfg ..).trans (setCfg_cfg_other _ _ hj)
  · exact (setWork_work_other _ _ hj).trans (setCfg_work ..)
  · exact setWork_work_same ..

/-! ### Assignment and configuration (R14 to R17, R24) -/

/-- A configuration replaced whole, with a change of state: what an assignment and an UNASSIGN do. -/
theorem rewrittenEntry_memory (i : StationIx) (new : StationState) (l : List WorkField) (f : StationWork → StationWork)
    (ws : List Nat) (c : StationConfig) (s : State) :
    MemoryStep s.memory (enterState plain i new l f (rewriteWords ws (s.setCfg i c))).memory := by
  rw [enterState_memory]
  exact rewrites_step ws s.memory

theorem rewrittenEntry_cfg_other {j : StationIx} (hj : j ≠ i) (new : StationState) (l : List WorkField)
    (f : StationWork → StationWork) (ws : List Nat) (c : StationConfig) (s : State) :
    (enterState plain i new l f (rewriteWords ws (s.setCfg i c))).cfg j = s.cfg j := by
  rw [enterState_cfg, rewriteWords_cfg, setCfg_cfg_other _ _ hj]

theorem rewrittenEntry_cfg_same (i : StationIx) (new : StationState) (l : List WorkField)
    (f : StationWork → StationWork) (ws : List Nat) (c : StationConfig) (s : State) :
    (enterState plain i new l f (rewriteWords ws (s.setCfg i c))).cfg i = c := by
  rw [enterState_cfg, rewriteWords_cfg, setCfg_cfg_same]

theorem rewrittenEntry_work_other {j : StationIx} (hj : j ≠ i) (new : StationState) (l : List WorkField)
    (f : StationWork → StationWork) (ws : List Nat) (c : StationConfig) (s : State) :
    (enterState plain i new l f (rewriteWords ws (s.setCfg i c))).work j = s.work j := by
  rw [enterState_work_other _ _ _ _ _ hj, rewriteWords_work, setCfg_work]

theorem reconfigured_kept {c' : StationConfig} {full : Bool} (r : RecordSound c w)
    (hc : c.complete = true ∨ full = true → c'.complete = true) :
    RecordKept c' { w with
      recoveryRun := runUnder w.state c'.recoveryCount w.recoveryRun, damaged := w.damaged && !full } where
  complete ha hd := by
    simp only [Bool.and_eq_false_iff, Bool.not_eq_false'] at hd
    exact hc (hd.imp_left (r.complete ha))
  damaged hd := r.damaged (by simp only [Bool.and_eq_true] at hd; exact hd.1)
  run := by
    dsimp only [runUnder]
    split
    case isTrue hq => omega
    case isFalse hq =>
      by_cases hs : w.state = .quarantined
      · have : ¬ c'.recoveryCount ≤ w.recoveryRun := fun e => hq ⟨hs, e⟩
        omega
      · rw [r.idle hs]
        exact Nat.zero_le _
  idle hs := by
    dsimp only [runUnder] at hs ⊢
    rw [if_neg fun e => hs e.1]
    exact r.idle hs

/-! ### Restarts (R9) -/

theorem warm_sound (r : RecordSound c w) :
    RecordSound c { StationWork.cold with state := warmState w, damaged := w.damaged } := by
  refine cold_sound (st := warmState w) (d := w.damaged) ?_ (fun ha hd => ?_) (fun hd => ?_) ⟨rfl, rfl, rfl, rfl⟩
  · unfold warmState
    split
    · rfl
    · split <;> rfl
  · refine r.complete (Bool.not_eq_false _ ▸ fun hu => ?_) hd
    rw [warmState, unassigned_iff.1 hu] at ha
    simp [StationState.assigned] at ha
  · obtain ⟨cause, hs⟩ := r.damaged hd
    exact ⟨.record, by simp [warmState, hs, hd]⟩

theorem warmRestartBare_record (s : State) (j : StationIx) : (warmRestartBare s).cfg j = s.cfg j ∧
    (warmRestartBare s).work j =
      { StationWork.cold with state := warmState (s.work j), damaged := (s.work j).damaged } := by
  simp [warmRestartBare, State.cfg, State.work, State.station, Station.warm]

theorem coldPart_sound (p : Pins) (q : List Instr) : RecordsSound (State.cold p q) := by
  refine ⟨cold_wf p q, by simp [FewWrong, State.cold, Memory.cold], fun j => ?_⟩
  have work : (State.cold p q).work j = StationWork.cold := by
    simp [State.cold, State.work, State.station, Station.cold]
  rw [work]
  exact cold_sound (st := .unused) (d := false) rfl (by simp [StationState.assigned]) (by simp) ⟨rfl, rfl, rfl, rfl⟩

end Records

theorem records_steady : PartSteady RecordsSound where
  raise _ _ _ _ h := recordsSound_congr h (.refl _) rfl
  soft {s} i w hw h := recordsSound_setWork h fun r => by
    obtain ⟨hs, ht, hd, hr⟩ := hw
    refine ⟨⟨?_, ?_, ?_, ?_⟩, ?_⟩
    · rw [hs, hd]; exact r.complete
    · rw [hs, hd]; exact r.damaged
    · rcases hr with e | e | e
      · rw [e]; exact r.run
      · rw [e]; exact Nat.zero_le _
      · exact e.2
    · rw [hs]
      intro hq
      rcases hr with e | e | e
      · rw [e]; exact r.idle hq
      · exact e
      · exact absurd e.1 hq
    · rw [hs, ht]; exact r.target
  aim i r h := recordsSound_aimed r h (.refl _) (fun _ _ => rfl) (fun _ _ => rfl) (·.toRecordKept)
  enter {s} i n l f he hn ht h := by
    refine recordsSound_of_one h (enterState_memory .. ▸ .refl _) (fun j _ => enterState_cfg ..)
      (fun j hj => enterState_work_other _ _ _ _ _ hj) fun r => ?_
    rw [enterState_cfg, enterState_work_same]
    refine ⟨enters_kept he r, ?_⟩
    rw [clampTarget_inactive hn]
    rcases ht with e | ⟨e, hi⟩
    · exact e
    · rw [e, r.target, clampTarget_inactive hi]
  enterAim {s} i n l f r he h := by
    refine recordsSound_aimed r h (enterState_memory .. ▸ .refl _) (fun j _ => enterState_cfg ..)
      (fun j hj => enterState_work_other _ _ _ _ _ hj) fun k => ?_
    rw [enterState_cfg, enterState_work_same]
    exact enters_kept he k
  standDown {s} i h := by
    refine recordsSound_of_one h (standDown_memory i s ▸ .refl _) (fun j _ => standDown_cfg i j s)
      (fun j hj => standDown_work_other hj s) fun r => ?_
    rw [standDown_cfg, standDown_work_same]
    exact standDown_sound r
  sampler _ _ h := recordsSound_congr h (.refl _) rfl
  drive _ _ h := recordsSound_congr h (.refl _) rfl
  elapsed _ h := recordsSound_congr h (.refl _) rfl
  conversionDue _ h := recordsSound_congr h (.refl _) rfl
  restartDue _ h := recordsSound_congr h (.refl _) rfl
  pins _ h := recordsSound_congr h (.refl _) rfl
  measure _ h := recordsSound_congr h (.refl _) rfl
  balancer _ h := recordsSound_congr h (.refl _) rfl
  link _ h := recordsSound_congr h (.refl _) rfl
  control _ h := recordsSound_congr h (.refl _) rfl
  monitor _ h := recordsSound_congr h (.refl _) rfl
  roundTimer _ h := recordsSound_congr h (.refl _) rfl
  condition _ h := recordsSound_congr h (.refl _) rfl
  trip _ _ h := recordsSound_congr h (.refl _) rfl
  settings _ _ h := recordsSound_congr h (.refl _) rfl
  memory _ hm h := recordsSound_congr h hm rfl
  events _ _ h := recordsSound_congr h (.refl _) rfl
  recordLost {s} i k _ h := by
    obtain ⟨others, own⟩ := recordLost_fields i k s
    refine recordsSound_of_one h (recordLost_blocks i k s).memory (fun j hj => (others j hj).1)
      (fun j hj => (others j hj).2) fun _ => ?_
    exact cold_sound (st := .faulted .record) (d := true) rfl (by simp) (fun _ => ⟨_, rfl⟩) (by rw [own]; exact ⟨rfl, rfl, rfl, rfl⟩)
  damageUnused {s} i k hu h := by
    have unused := unassigned_iff.1 hu
    have memory := (damageUnused_blocks i k s).memory
    unfold Machine.damageUnused at memory ⊢
    split at memory
    case isTrue hk =>
      rw [if_pos hk]
      refine recordsSound_of_one (i := i) h memory (fun j hj => setCfg_cfg_other _ _ hj) (fun j _ => setCfg_work ..) fun r => ?_
      obtain ⟨hd, ht, hr⟩ := unused_quiet r unused
      refine cold_sound (st := .unused) (d := false) rfl (by simp [StationState.assigned]) (by simp) ?_
      rw [rewriteWords_work, setCfg_work]
      exact ⟨unused, hd, ht, hr⟩
    case isFalse hk =>
      rw [if_neg hk]
      refine recordsSound_of_one (i := i) h memory (fun j _ => setWork_cfg ..) (fun j hj => setWork_work_other _ _ hj) fun r => ?_
      obtain ⟨hd, ht, hr⟩ := unused_quiet r unused
      refine cold_sound (st := .unused) (d := false) rfl (by simp [StationState.assigned]) (by simp) ?_
      rw [rewriteWords_work, setWork_work_same]
      exact ⟨(chill_unused _ unused hd).1, (chill_unused _ unused hd).2, chill_quiet _ ⟨ht, hr⟩⟩
  misread {s} w hw h := absurd hw (by have := count_le_of_few h.2.1 w; omega)
  assign {s} i c _ hc h := by
    refine recordsSound_of_one h (rewrittenEntry_memory ..) (fun j hj => rewrittenEntry_cfg_other hj ..)
      (fun j hj => rewrittenEntry_work_other hj ..) fun _ => ?_
    rw [assignStation, rewrittenEntry_cfg_same, enterState_work_same]
    exact cold_sound (st := .standby) (d := false) rfl (fun _ _ => hc) (by simp) ⟨rfl, rfl, rfl, rfl⟩
  reconfigure {s} i c full ws ha hc h := by
    refine recordsSound_aimed _ h (reconfigured_blocks i c full ws s).memory (fun j hj => ?_) (fun j hj => ?_) fun r => ?_
    · exact (setWork_cfg ..).trans (setCfg_cfg_other _ _ hj)
    · exact (setWork_work_other _ _ hj).trans (setCfg_work ..)
    · unfold reconfigured
      rw [setWork_cfg, setWork_work_same, rewriteWords_cfg, setCfg_cfg_same]
      exact reconfigured_kept r hc
  pinned {s} i v h := by
    refine recordsSound_aimed _ h (pinStored_blocks i v s).memory (fun j hj => setCfg_cfg_other _ _ hj)
      (fun j _ => setCfg_work ..) fun r => ?_
    unfold pinStored
    rw [rewriteWords_cfg, rewriteWords_work, setCfg_cfg_same, setCfg_work]
    exact ⟨r.complete, r.damaged, r.run, r.idle⟩
  unassign {s} i _ h := by
    refine recordsSound_of_one h (rewrittenEntry_memory ..) (fun j hj => rewrittenEntry_cfg_other hj ..)
      (fun j hj => rewrittenEntry_work_other hj ..) fun _ => ?_
    rw [unassign, rewrittenEntry_cfg_same, enterState_work_same]
    exact cold_sound (st := .unused) (d := false) rfl (by simp [StationState.assigned]) (by simp) ⟨rfl, rfl, rfl, rfl⟩

theorem records_modeSteady : ModeSteady RecordsSound RecordsSound RecordsSound True where
  rest := records_steady
  rising := records_steady
  falling := records_steady
  trip _ h := recordsSound_congr h (.refl _) rfl
  started {s} h := by
    rw [startSampler_samplerOnly s]
    exact recordsSound_congr h (.refl _) rfl
  running _ _ h := recordsSound_congr h (.refl _) rfl
  resuming _ _ h := recordsSound_congr h (.refl _) rfl
  stopping _ h := recordsSound_congr h (.refl _) rfl
  leaving _ h := recordsSound_congr h (.refl _) rfl
  stopped ws h := recordsSound_congr h (rewrites_step ws _) rfl
  cold {s} _ := coldPart_sound (s.pins) s.pending
  warm {s} h := by
    refine ⟨warm_wf _ h.1, warm_few _ h.2.1, fun j => ?_⟩
    obtain ⟨hc, hw⟩ := warmRestartBare_record s j
    rw [hc, hw]
    exact warm_sound (h.2.2 j)

/-- Settles O10. -/
theorem stepKeepsTable : Obligations.StepKeepsTable := by
  unfold Obligations.StepKeepsTable
  exact fun s t h ht => tableSound_iff.2
    (records_modeSteady.step (fun _ h => recordsSound_congr h (.refl _) rfl)
      (fun {s} _ => recordsSound_congr (coldPart_sound s.pins s.pending) (.refl _) rfl) (tableSound_iff.1 h) ht)

end Sys2Proof.Proofs
end

section
/-! What the sampler gives up with a station (R35, R64, R75, R79), and the claims, entries and samples of Safety. -/

namespace Sys2Proof.Proofs

open Sys2Proof Sys2Proof.Machine Sys2Proof.Laws

/-- The station holds no claim. -/
def Unclaimed (i : StationIx) (k : Sampler) : Prop := k.claim17 ≠ some i ∧ k.claim18 ≠ some i

section Given

variable {s : State} {k : Sampler} {i : StationIx}

/-! ### An elementary change brings nothing in for a station that is not active -/

theorem SamplerStep.unclaimed (h : SamplerStep s k) (hi : (s.work i).state.active = false) (hu : Unclaimed i s.sampler) :
    Unclaimed i k := by
  refine ⟨fun e => ?_, fun e => ?_⟩
  · rcases h.claim17 i e with e | e
    · exact hu.1 e
    · simp [hi] at e
  · rcases h.claim18 i e with e | e
    · exact hu.2 e
    · simp [hi] at e

theorem SamplerStep.unsampled (h : SamplerStep s k) (hi : (s.work i).state.active = false)
    (hu : sampledStation s.sampler ≠ some i) : sampledStation k ≠ some i := by
  intro e
  rcases h.flight i e with e | e
  · exact hu e
  · simp [hi] at e

theorem SamplerStep.unlisted (h : SamplerStep s k) (hi : (s.work i).state.active = false) (hu : i ∉ s.sampler.demand) :
    i ∉ k.demand := by
  intro e
  rcases h.demand i e with e | e
  · exact hu e
  · simp [hi] at e

theorem dropClaim_unclaimed (i : StationIx) (s : State) : Unclaimed i (dropClaim i s).sampler := by
  have released := releaseClaim_released i s
  rwa [releaseClaim_plain] at released

theorem abandonFor_unsampled (hi : (s.work i).state.active = false) :
    sampledStation (abandonFor plain i s).sampler ≠ some i := by
  unfold abandonFor
  split
  case h_1 m hm =>
    split
    case isTrue =>
      exact (select_step (discardSample s)).unsampled (s := discardSample s) hi (by simp [discardSample, sampledStation])
    case isFalse other => simpa [sampledStation, hm] using other
  case h_2 hn => simp [sampledStation, hn]

/-- A claim and a sample are given up. -/
theorem giveUp_spec (hi : (s.work i).state.active = false) :
    Unclaimed i (abandonFor plain i (dropClaim i s)).sampler ∧
      sampledStation (abandonFor plain i (dropClaim i s)).sampler ≠ some i :=
  ⟨(abandonFor_step i (dropClaim i s)).unclaimed (s := dropClaim i s) hi (dropClaim_unclaimed i s),
    abandonFor_unsampled (s := dropClaim i s) hi⟩

/-- A station that leaves PRODUCING or QUARANTINED has its claim and its sample given up (R35). -/
theorem tellSampler_left {old new : StationState} (hi : (s.work i).state.active = false) (ho : old.active = true)
    (hn : new.active = false) : Unclaimed i (tellSampler plain i old new s).sampler ∧
      sampledStation (tellSampler plain i old new s).sampler ≠ some i := by
  cases new <;> simp only [tellSampler, ho, if_true, releaseClaim_plain]
  case producing => simp [StationState.active] at hn
  case quarantined => simp [StationState.active] at hn
  case unused => exact giveUp_spec (s := removeDemand i s) hi
  case isolated => exact giveUp_spec (s := removeDemand i s) hi
  all_goals exact giveUp_spec hi

/-- And one that becomes UNUSED or ISOLATED has its demand entry removed besides (R64). -/
theorem tellSampler_out {old new : StationState} (hi : (s.work i).state.active = false)
    (hn : new = .unused ∨ new = .isolated) : i ∉ (tellSampler plain i old new s).sampler.demand ∧
      Unclaimed i (tellSampler plain i old new s).sampler ∧
      sampledStation (tellSampler plain i old new s).sampler ≠ some i := by
  have removed : i ∉ (removeDemand i s).sampler.demand := by simp [removeDemand]
  have out : i ∉ (abandonFor plain i (dropClaim i (removeDemand i s))).sampler.demand :=
    (abandonFor_step i (dropClaim i (removeDemand i s))).unlisted (s := dropClaim i (removeDemand i s)) hi removed
  rcases hn with rfl | rfl <;> exact ⟨out, giveUp_spec (s := removeDemand i s) hi⟩

theorem enterState_sampler_step (i : StationIx) (new : StationState) (l : List WorkField) (f : StationWork → StationWork)
    (s : State) : ∃ u : State, u.sampler = s.sampler ∧ (u.work i).state = new ∧
      (∀ j, (enterState plain i new l f s).work j = u.work j) ∧
      (enterState plain i new l f s).sampler = (tellSampler plain i (s.work i).state new u).sampler := by
  refine ⟨raise .state (stationNumber i) none (some new.eventValue) (s.setWork i { f (s.work i) with state := new }), rfl,
    ?_, fun j => ?_, rfl⟩
  · rw [raise_work, setWork_work_same]
  · rw [enterState_plain, tellSampler_work]

theorem enterState_left {new : StationState} (l : List WorkField) (f : StationWork → StationWork)
    (ho : (s.work i).state.active = true) (hn : new.active = false) :
    Unclaimed i (enterState plain i new l f s).sampler ∧
      sampledStation (enterState plain i new l f s).sampler ≠ some i := by
  obtain ⟨u, -, hi, -, hk⟩ := enterState_sampler_step i new l f s
  rw [hk]
  exact tellSampler_left (by rw [hi]; exact hn) ho hn

theorem enterState_out {new : StationState} (l : List WorkField) (f : StationWork → StationWork)
    (hn : new = .unused ∨ new = .isolated) : i ∉ (enterState plain i new l f s).sampler.demand ∧
      Unclaimed i (enterState plain i new l f s).sampler ∧
      sampledStation (enterState plain i new l f s).sampler ≠ some i := by
  obtain ⟨u, -, hi, -, hk⟩ := enterState_sampler_step i new l f s
  rw [hk]
  refine tellSampler_out ?_ hn
  rw [hi]
  rcases hn with rfl | rfl <;> rfl

end Given

/-! ### Claims, entries and samples (R53, R62, R75) -/

/-- What the claims, the entries and the sample in flight have to do with a station's state. -/
def SamplingOf (k : Sampler) (st : StationIx → StationState) : Prop :=
  ∀ j : StationIx, ((st j).active = true ∨ Unclaimed j k) ∧
    (st j ≠ .unused ∧ st j ≠ .isolated ∨ j ∉ k.demand ∧ sampledStation k ≠ some j)

/-- Few wrong bits, and the sampler in agreement with the table. -/
def SamplingKept (s : State) : Prop := FewWrong s.memory.wrongBits ∧ SamplingOf s.sampler fun j => (s.work j).state

theorem samplingKept_iff {s : State} : SamplingKept s ↔ FewWrongBits s ∧ ClaimsSound s ∧ SamplingSound s := by
  refine and_congr_right fun _ => ⟨fun h => ⟨fun i hc => ?_, fun i hc => ?_⟩, fun ⟨hc, hs⟩ i => ⟨?_, ?_⟩⟩
  · exact (h i).1.resolve_right fun hu => hc.elim hu.1 hu.2
  · exact (h i).2.resolve_right fun hu => hc.elim hu.1 hu.2
  · exact or_iff_not_imp_left.2 fun ha => ⟨fun e => ha (hc i (.inl e)), fun e => ha (hc i (.inr e))⟩
  · exact or_iff_not_imp_left.2 fun ha => ⟨fun e => ha (hs i (.inl e)), fun e => ha (hs i (.inr e))⟩

section Kept

variable {s t : State} {i : StationIx}

theorem live_of_active {st : StationState} (h : st.active = true) : st ≠ .unused ∧ st ≠ .isolated := by
  constructor <;> rintro rfl <;> simp [StationState.active] at h

/-- An elementary change of the sampler keeps the agreement. -/
theorem SamplerStep.sampling {k : Sampler} (h : SamplerStep s k) (hs : SamplingOf s.sampler fun j => (s.work j).state) :
    SamplingOf k fun j => (s.work j).state := by
  intro j
  by_cases ha : (s.work j).state.active = true
  · exact ⟨.inl ha, .inl (live_of_active ha)⟩
  · have hi : (s.work j).state.active = false := by simpa using ha
    exact ⟨.inr (h.unclaimed hi ((hs j).1.resolve_left ha)),
      (hs j).2.imp_right fun ⟨hd, hf⟩ => ⟨h.unlisted hi hd, h.unsampled hi hf⟩⟩

theorem samplingKept_of_step (h : SamplingKept s) (hm : MemoryStep s.memory t.memory)
    (hst : ∀ j, (t.work j).state = (s.work j).state) (hk : SamplerStep s t.sampler) : SamplingKept t := by
  refine ⟨hm.few h.1, ?_⟩
  simp only [hst]
  exact hk.sampling h.2

theorem samplingKept_congr (h : SamplingKept s) (hm : MemoryStep s.memory t.memory) (hst : t.stations = s.stations)
    (hk : t.sampler = s.sampler) : SamplingKept t :=
  samplingKept_of_step h hm (fun j => by rw [State.work, State.work, State.station, State.station, hst]) (hk ▸ .refl s)

theorem setWork_state {w : StationWork} (h : w.state = (s.work i).state) (j : StationIx) :
    ((s.setWork i w).work j).state = (s.work j).state := by
  by_cases hj : j = i
  · subst hj
    rw [setWork_work_same, h]
  · rw [setWork_work_other _ _ hj]

theorem aimed_state (i : StationIx) (r : Nat) (s : State) (j : StationIx) :
    ((aimed i r s).work j).state = (s.work j).state := by
  unfold aimed
  split
  · rfl
  · refine setWork_state ?_ j
    rfl

theorem aimed_sampler (i : StationIx) (r : Nat) (s : State) : (aimed i r s).sampler = s.sampler := by
  unfold aimed
  split <;> rfl

theorem samplingKept_aimed (r : Nat) (h : SamplingKept s) : SamplingKept (aimed i r s) :=
  samplingKept_of_step h (aimed_memory i r s ▸ .refl _) (aimed_state i r s) (aimed_sampler i r s ▸ .refl s)

/-- Where one station becomes inactive, and the sampler gives up what it held of it. -/
theorem samplingKept_of_left {u : State} (h : SamplingKept s) (hm : MemoryStep s.memory t.memory)
    (others : ∀ j, j ≠ i → (t.work j).state = (s.work j).state) (hu : u.sampler = s.sampler)
    (hwork : ∀ j, (t.work j).state = (u.work j).state) (hk : SamplerStep u t.sampler)
    (own : ((t.work i).state.active = true ∨ Unclaimed i t.sampler) ∧
      ((t.work i).state ≠ .unused ∧ (t.work i).state ≠ .isolated ∨ i ∉ t.sampler.demand ∧ sampledStation t.sampler ≠ some i)) :
    SamplingKept t := by
  refine ⟨hm.few h.1, fun j => ?_⟩
  by_cases hj : j = i
  · subst hj
    exact own
  · by_cases ha : (t.work j).state.active = true
    · exact ⟨.inl ha, .inl (live_of_active ha)⟩
    · have hi : (u.work j).state.active = false := by rw [← hwork j]; simpa using ha
      have before := h.2 j
      simp only [← others j hj, ← hu] at before
      exact ⟨.inr (hk.unclaimed hi (before.1.resolve_left ha)),
        before.2.imp_right fun ⟨hd, hf⟩ => ⟨hk.unlisted hi hd, hk.unsampled hi hf⟩⟩

theorem samplingKept_enterState (h : SamplingKept s) (new : StationState) (l : List WorkField)
    (f : StationWork → StationWork) : SamplingKept (enterState plain i new l f s) := by
  obtain ⟨u, hu, hnew, hwork, hk⟩ := enterState_sampler_step i new l f s
  have own : ((enterState plain i new l f s).work i).state = new := by rw [hwork, hnew]
  have step : SamplerStep u (enterState plain i new l f s).sampler := hk ▸ tellSampler_step ..
  refine samplingKept_of_left h (enterState_memory .. ▸ .refl _)
    (fun j hj => by rw [enterState_work_other _ _ _ _ _ hj]) hu (fun j => by rw [hwork]) step ⟨?_, ?_⟩
  · rw [own]
    by_cases hn : new.active = true
    · exact .inl hn
    · right
      have hn' : new.active = false := by simpa using hn
      by_cases ho : (s.work i).state.active = true
      · exact (enterState_left l f ho hn').1
      · exact step.unclaimed (by rw [hnew]; exact hn') (hu ▸ (h.2 i).1.resolve_left ho)
  · rw [own]
    by_cases hn : new = .unused ∨ new = .isolated
    · exact .inr ⟨(enterState_out l f hn).1, (enterState_out l f hn).2.2⟩
    · exact .inl ⟨fun e => hn (.inl e), fun e => hn (.inr e)⟩

/-- A configuration replaced whole, with a change of state. -/
theorem samplingKept_rewrittenEntry (h : SamplingKept s) (i : StationIx) (new : StationState) (l : List WorkField)
    (f : StationWork → StationWork) (ws : List Nat) (c : StationConfig) :
    SamplingKept (enterState plain i new l f (rewriteWords ws (s.setCfg i c))) := by
  refine samplingKept_enterState (samplingKept_of_step h ((setCfg_blocks i c s).trans (rewriteWords_blocks ..)).memory
    (fun j => ?_) (.refl s)) new l f
  rw [rewriteWords_work, setCfg_work]

theorem samplingKept_reconfigured (h : SamplingKept s) (i : StationIx) (c : StationConfig) (full : Bool) (ws : List Nat) :
    SamplingKept (reconfigured i c full ws s) := by
  refine samplingKept_of_step h (reconfigured_blocks i c full ws s).memory (fun j => ?_) (.refl s)
  unfold reconfigured
  rw [setWork_state, rewriteWords_work, setCfg_work]
  rw [rewriteWords_work, setCfg_work]

theorem samplingKept_pinStored (h : SamplingKept s) (i : StationIx) (v : Bool) : SamplingKept (pinStored i v s) := by
  refine samplingKept_of_step h (pinStored_blocks i v s).memory (fun j => ?_) (.refl s)
  unfold pinStored
  rw [rewriteWords_work, setCfg_work]

theorem samplingKept_standDown (h : SamplingKept s) (i : StationIx) : SamplingKept (standDown i plain s) := by
  have others (j : StationIx) (hj : j ≠ i) : ((standDown i plain s).work j).state = (s.work j).state := by
    rw [standDown_work_other hj]
  have own := standDown_work_same i s
  have memory : MemoryStep s.memory (standDown i plain s).memory := standDown_memory i s ▸ .refl _
  by_cases ha : (s.work i).state.active = true
  · rw [if_pos ha] at own
    obtain ⟨v, hv, same⟩ : ∃ v, standDown i plain s = dropClaim i v ∧ v.sampler = s.sampler :=
      ⟨_, (standDown_plain s i).trans (if_pos ha), rfl⟩
    rw [hv] at others own memory ⊢
    refine samplingKept_of_left h memory others same (fun _ => rfl) (dropClaim_step i v)
      ⟨.inr (dropClaim_unclaimed i v), ?_⟩
    rw [own]
    exact .inl ⟨by simp, by simp⟩
  · rw [if_neg ha] at own
    refine samplingKept_of_step h memory (fun j => ?_) ?_
    · by_cases hj : j = i
      · subst hj
        rw [own, (closed_fields _).1]
      · exact others j hj
    · rw [standDown_plain, if_neg ha]
      exact .refl s

theorem chill_state (l : List WorkField) {w : StationWork} (h : w.state = .unused) :
    (l.foldl StationWork.chill w).state = .unused := by
  induction l generalizing w with
  | nil => exact h
  | cons f rest ih =>
    refine ih ?_
    cases f
    case state => rfl
    all_goals exact h

theorem damageUnused_state {k : Nat} (h : (s.work i).state = .unused) (j : StationIx) :
    ((damageUnused i k s).work j).state = (s.work j).state := by
  unfold damageUnused
  split
  · exact congrArg StationWork.state (setCfg_work ..)
  · exact setWork_state ((chill_state _ h).trans h.symm) j

theorem damageUnused_sampler (i : StationIx) (k : Nat) (s : State) : (damageUnused i k s).sampler = s.sampler := by
  unfold damageUnused
  split <;> rfl

theorem samplingKept_recordLost (h : SamplingKept s) (i : StationIx) (k : Nat) : SamplingKept (recordLost i k s) := by
  obtain ⟨others, own⟩ := recordLost_fields i k s
  have memory := (recordLost_blocks i k s).memory
  generalize ht : recordLost i k s = t at others own memory
  unfold recordLost at ht
  generalize hv : raise EventKind.state (stationNumber i) none (some (StationState.faulted .record).eventValue)
    (rewriteWords ((recordBase i + k) :: workWords i)
      ((s.setCfg i (copyConfigWord k StationConfig.default (s.cfg i))).setWork i
        { (s.work i).afterDamage with state := .faulted .record, damaged := true })) = v at ht
  have same : v.sampler = s.sampler := hv ▸ rfl
  have lost : (v.work i).state = .faulted .record := by
    rw [← hv, raise_work, rewriteWords_work, setWork_work_same]
  have table : ∀ j, t.work j = v.work j := fun j => by rw [← ht, abandonFor_samplerOnly]; rfl
  have gone := giveUp_spec (s := v) (i := i) (by rw [lost]; rfl)
  rw [ht] at gone
  have step : SamplerStep v t.sampler := ht ▸ (dropClaim_step i v).trans (abandonFor_step i (dropClaim i v))
  refine samplingKept_of_left h memory (fun j hj => by rw [(others j hj).2]) same (fun j => by rw [table]) step
    ⟨.inr gone.1, ?_⟩
  rw [own]
  exact .inl ⟨by simp, by simp⟩

end Kept

theorem sampling_steady : PartSteady SamplingKept where
  raise _ _ _ _ h := samplingKept_congr h (.refl _) rfl rfl
  soft {s} i w hw h := samplingKept_of_step h (.refl _) (setWork_state hw.state) (.refl s)
  aim _ r h := samplingKept_aimed r h
  enter i n l f _ _ _ h := samplingKept_enterState h n l f
  enterAim i n l f r _ h := samplingKept_aimed r (samplingKept_enterState h n l f)
  standDown i h := samplingKept_standDown h i
  sampler _ hk h := samplingKept_of_step h (.refl _) (fun _ => rfl) hk
  drive _ _ h := samplingKept_congr h (.refl _) rfl rfl
  elapsed _ h := samplingKept_congr h (.refl _) rfl rfl
  conversionDue _ h := samplingKept_congr h (.refl _) rfl rfl
  restartDue _ h := samplingKept_congr h (.refl _) rfl rfl
  pins _ h := samplingKept_congr h (.refl _) rfl rfl
  measure _ h := samplingKept_congr h (.refl _) rfl rfl
  balancer _ h := samplingKept_congr h (.refl _) rfl rfl
  link _ h := samplingKept_congr h (.refl _) rfl rfl
  control _ h := samplingKept_congr h (.refl _) rfl rfl
  monitor _ h := samplingKept_congr h (.refl _) rfl rfl
  roundTimer _ h := samplingKept_congr h (.refl _) rfl rfl
  condition _ h := h
  trip _ _ h := samplingKept_congr h (.refl _) rfl rfl
  settings _ _ h := samplingKept_congr h (.refl _) rfl rfl
  memory _ hm h := samplingKept_congr h hm rfl rfl
  events _ _ h := samplingKept_congr h (.refl _) rfl rfl
  recordLost i k _ h := samplingKept_recordLost h i k
  damageUnused {s} i k hu h := samplingKept_of_step h (damageUnused_blocks i k s).memory
    (damageUnused_state (unassigned_iff.1 hu)) (damageUnused_sampler i k s ▸ .refl s)
  misread {s} w hw h := absurd hw (by have := count_le_of_few h.1 w; omega)
  assign i _ _ _ h := samplingKept_rewrittenEntry h i ..
  reconfigure i c full ws _ _ h := samplingKept_aimed _ (samplingKept_reconfigured h i c full ws)
  pinned i v h := samplingKept_aimed _ (samplingKept_pinStored h i v)
  unassign i _ h := samplingKept_rewrittenEntry h i ..

/-- A sampler with no claim, entry or sample agrees with every table. -/
theorem samplingOf_cold (entries : SweepEntries) (classes : Vector LineClass 19) (st : StationIx → StationState) :
    SamplingOf (Sampler.cold entries classes) st :=
  fun j => ⟨.inr (by simp [Unclaimed, Sampler.cold]), .inr (by simp [Sampler.cold, sampledStation])⟩

theorem samplingKept_start {s : State} (h : SamplingKept s) : SamplingKept (startSampler plain s) := by
  unfold startSampler
  split
  · split
    · exact h
    · exact sampling_steady.select (s := { s with sampler := { s.sampler with phase := .idle } }) h
  · exact h

theorem sampling_modeSteady : ModeSteady SamplingKept SamplingKept SamplingKept True where
  rest := sampling_steady
  rising := sampling_steady
  falling := sampling_steady
  trip _ h := samplingKept_congr h (.refl _) rfl rfl
  started := samplingKept_start
  running _ _ h := samplingKept_congr h (.refl _) rfl rfl
  resuming _ _ h := samplingKept_congr h (.refl _) rfl rfl
  stopping _ h := samplingKept_congr h (.refl _) rfl rfl
  leaving _ h := samplingKept_congr h (.refl _) rfl rfl
  stopped {s} ws h := by
    refine ⟨(rewrites_step ws s.memory).few h.1, fun j => ⟨(h.2 j).1, (h.2 j).2.imp_right fun ⟨hd, _⟩ => ⟨hd, ?_⟩⟩⟩
    simp [stopSampler, sampledStation]
  cold _ := ⟨by simp [FewWrong, State.cold, Memory.cold], samplingOf_cold _ _ _⟩
  warm {s} h := ⟨warm_few _ h.1, samplingOf_cold _ _ _⟩

/-- Settles O11. -/
theorem stepKeepsSampling : Obligations.StepKeepsSampling := by
  unfold Obligations.StepKeepsSampling
  exact fun s t hf hc hs ht => samplingKept_iff.1
    (sampling_modeSteady.step (fun _ h => h) sampling_modeSteady.cold (samplingKept_iff.2 ⟨hf, hc, hs⟩) ht)

end Sys2Proof.Proofs
end

section
/-! The trip function output (R168). An evaluation leaves it current. Work that changes no trip condition leaves it so unless a
read finds damage, and damage found calls for an evaluation behind the command (log 13): so every step leaves it current. -/

namespace Sys2Proof.Proofs

open Sys2Proof Sys2Proof.Machine Sys2Proof.Laws

/-- The output is the value the terms give. -/
def Current (s : State) : Prop := s.trip.output = functionValue s

section Conditions

variable {s t : State} {i : StationIx}

/-! ### What the function value depends on (R166) -/

theorem functionValue_congr (ht : t.settings.trip = s.settings.trip) (hc : ∀ c, condition t c = condition s c) :
    functionValue t = functionValue s := by
  simp only [functionValue, termValue, ht, hc]

theorem current_congr (ho : t.trip.output = s.trip.output) (ht : t.settings.trip = s.settings.trip)
    (hc : ∀ c, condition t c = condition s c) (h : Current s) : Current t :=
  ho.trans (h.trans (functionValue_congr ht hc).symm)

theorem current_setWork {w : StationWork} (hd : w.damaged = (s.work i).damaged) (h : Current s) :
    Current (s.setWork i w) := by
  refine current_congr (s := s) rfl rfl (fun c => ?_) h
  have marks (j : StationIx) : ((s.setWork i w).work j).damaged = (s.work j).damaged := by
    by_cases hj : j = i
    · subst hj
      rw [setWork_work_same, hd]
    · rw [setWork_work_other _ _ hj]
  cases c
  case recordDamaged =>
    show recordDamaged _ = recordDamaged _
    simp only [recordDamaged, marks]
    rfl
  all_goals rfl

theorem current_setCfg (c : StationConfig) (h : Current s) : Current (s.setCfg i c) := by
  refine current_congr (s := s) rfl rfl (fun k => ?_) h
  cases k
  case recordDamaged =>
    show recordDamaged _ = recordDamaged _
    simp only [recordDamaged, setCfg_work]
    rfl
  all_goals rfl

theorem current_sampler {k : Sampler} (hk : k.analyserFault = s.sampler.analyserFault) (h : Current s) :
    Current { s with sampler := k } := by
  refine current_congr (s := s) rfl rfl (fun c => ?_) h
  cases c
  case analyserFault => exact hk
  all_goals rfl

theorem current_samplerOnly (only : SamplerOnly s t) (hk : t.sampler.analyserFault = s.sampler.analyserFault)
    (h : Current s) : Current t := by
  rw [show t = { s with sampler := t.sampler } from only]
  exact current_sampler hk h

theorem current_memory {m : Memory} (hm : m.damagedSetting = s.memory.damagedSetting) (h : Current s) :
    Current { s with memory := m } := by
  refine current_congr (s := s) rfl rfl (fun c => ?_) h
  cases c
  case recordDamaged =>
    show recordDamaged _ = recordDamaged _
    simp only [recordDamaged, hm]
    rfl
  all_goals rfl

theorem rewrites_damagedSetting (ws : List Nat) (m : Memory) :
    (ws.foldl Memory.rewrite m).damagedSetting = m.damagedSetting := by
  induction ws generalizing m with
  | nil => rfl
  | cons w rest ih => exact ih _

theorem current_rewriteWords (ws : List Nat) (h : Current s) : Current (rewriteWords ws s) :=
  current_memory (rewrites_damagedSetting ws s.memory) h

theorem current_raise (k : EventKind) (n : Nat) (e : Option Edge) (v : Option Nat) (h : Current s) :
    Current (raise k n e v s) := h

theorem current_aimed (r : Nat) (h : Current s) : Current (aimed i r s) := by
  unfold aimed
  split
  · exact h
  · exact current_setWork rfl h

theorem current_enterState {new : StationState} (l : List WorkField) {f : StationWork → StationWork}
    (hd : (f (s.work i)).damaged = (s.work i).damaged) (h : Current s) : Current (enterState plain i new l f s) := by
  rw [enterState_plain]
  have told := current_raise .state (stationNumber i) none (some new.eventValue)
    (current_setWork (w := { f (s.work i) with state := new }) hd h)
  exact current_samplerOnly (tellSampler_samplerOnly ..) (tellSampler_step ..).fault told

theorem current_standDown (h : Current s) : Current (standDown i plain s) := by
  have kept : (s.work i).closed.damaged = (s.work i).damaged := (closed_fields _).2.1
  rw [standDown_plain]
  split
  · exact current_sampler rfl (current_raise _ _ _ _
      (current_setWork (w := { (s.work i).closed with state := .standby, restartMark := true, recoveryRun := 0 }) kept h))
  · exact current_setWork kept h

theorem current_rewrittenEntry {new : StationState} (l : List WorkField) {f : StationWork → StationWork} (ws : List Nat)
    (c : StationConfig) (hd : (f (s.work i)).damaged = (s.work i).damaged) (h : Current s) :
    Current (enterState plain i new l f (rewriteWords ws (s.setCfg i c))) := by
  refine current_enterState l ?_ (current_rewriteWords ws (current_setCfg c h))
  rw [rewriteWords_work, setCfg_work, hd]

/-! ### Evaluations leave the output current (R168, R169) -/

theorem current_refreshOutput (s : State) : Current (refreshOutput s) := rfl

theorem current_evaluateOutput (s : State) : Current (evaluateOutput plain s) := by
  show Current (followOutput (refreshOutput s))
  unfold followOutput
  split
  · exact current_refreshOutput s
  · split <;> exact current_refreshOutput s

theorem current_noteWrites (work : Work) (before : State) (h : Current s) : Current (noteWrites work before s) := by
  unfold noteWrites
  split
  · exact h
  · exact current_rewriteWords _ h

theorem current_checked {work : Work} (hw : ∀ t, Current (work plain t)) (need : State → List Nat) (s : State) :
    Current (checked need work s) := by
  rw [checked, behind_eq]
  exact current_noteWrites _ _ (hw _)

theorem current_tripIfDue (h : Current s) : Current (tripIfDue checked s) := by
  unfold tripIfDue
  split
  · exact current_refreshOutput _
  · exact h

theorem current_evaluateTrip (need : State → List Nat) (s : State) : Current (evaluateTrip checked need s) :=
  current_tripIfDue (current_checked current_evaluateOutput need s)

theorem current_judge (before s : State) : Current (judge before s) := current_evaluateTrip _ s

/-! ### A state whose output is current, or in which damage has been found -/

/-- The wrong bits are those of `s₀` or fewer words of them. -/
def BitsOf (s₀ t : State) : Prop := t.memory.wf = true ∧ FewWrong t.memory.wrongBits ∧
  ∀ w, wrongBitsIn t.memory.wrongBits w = wrongBitsIn s₀.memory.wrongBits w ∨ wrongBitsIn t.memory.wrongBits w = 0

/-- A word with more than one wrong bit in `s₀` has been read or written. -/
def FoundIn (s₀ t : State) : Prop := t.memory.wf = true ∧ FewWrong t.memory.wrongBits ∧
  ∃ w, 2 ≤ countBits (wrongBitsIn s₀.memory.wrongBits w) ∧ wrongBitsIn t.memory.wrongBits w = 0

/-- A sound table with the wrong bits of `s₀` and a current output. -/
def Undamaged (s₀ t : State) : Prop := (RecordsSound t ∧ BitsOf s₀ t) ∧ Current t

/-- Behind work that changes no trip condition. -/
def Judgeable (s₀ t : State) : Prop := Undamaged s₀ t ∨ FoundIn s₀ t

theorem bitsOf_steady (s₀ : State) : PartSteady (BitsOf s₀) := .of_blocks fun h ⟨wf, few, bits⟩ =>
  ⟨h.memory.wf wf, h.memory.few few, fun w => (h.memory.clears wf few w).elim (fun e => (bits w).imp e.trans e.trans) .inr⟩

theorem foundIn_steady (s₀ : State) : PartSteady (FoundIn s₀) := .of_blocks fun h ⟨wf, few, w, hw, found⟩ =>
  ⟨h.memory.wf wf, h.memory.few few, w, hw, (h.memory.clears wf few w).elim (fun e => e.trans found) id⟩

theorem undamaged_quiet (s₀ : State) : QuietSteady (Undamaged s₀) := by
  have hR := (records_steady.and (bitsOf_steady s₀)).quiet
  exact
  { raise := fun k n e v h => ⟨hR.raise k n e v h.1, h.2⟩
    soft := fun i w hw h => ⟨hR.soft i w hw h.1, current_setWork hw.damaged h.2⟩
    aim := fun i r h => ⟨hR.aim i r h.1, current_aimed r h.2⟩
    enter := fun i n l f he hn ht h => ⟨hR.enter i n l f he hn ht h.1, current_enterState l he.damaged h.2⟩
    enterAim := fun i n l f r he h => ⟨hR.enterAim i n l f r he h.1, current_aimed r (current_enterState l he.damaged h.2)⟩
    standDown := fun i h => ⟨hR.standDown i h.1, current_standDown h.2⟩
    sampler := fun k hk h => ⟨hR.sampler k hk h.1, current_sampler hk.fault h.2⟩
    drive := fun d hd h => ⟨hR.drive d hd h.1, h.2⟩
    elapsed := fun v h => ⟨hR.elapsed v h.1, h.2⟩
    restartDue := fun v h => ⟨hR.restartDue v h.1, h.2⟩
    link := fun v h => ⟨hR.link v h.1, h.2⟩
    control := fun v h => ⟨hR.control v h.1, h.2⟩
    monitor := fun v h => ⟨hR.monitor v h.1, h.2⟩
    roundTimer := fun v h => ⟨hR.roundTimer v h.1, h.2⟩
    events := fun u hu h => ⟨hR.events u hu h.1, h.2⟩
    senseMark := fun v h => ⟨hR.senseMark v h.1, h.2⟩
    releaseLine := fun h => ⟨hR.releaseLine h.1, h.2⟩
    rewriteWords := fun ws h => ⟨hR.rewriteWords ws h.1, current_rewriteWords ws h.2⟩
    marks := fun m hm hd hr h => ⟨hR.marks m hm hd hr h.1, current_memory hd h.2⟩
    notice := fun n h => ⟨hR.notice n h.1, h.2⟩
    cast := fun n h => ⟨hR.cast n h.1, h.2⟩
    pinned := fun i v h => ⟨hR.pinned i v h.1, current_aimed _ (current_rewriteWords _ (current_setCfg _ h.2))⟩
    unassign := fun {s} i hs h => ⟨hR.unassign i hs h.1, by
      refine current_rewrittenEntry _ _ _ ?_ h.2
      by_contra hd
      have marked : (s.work i).damaged = true := by simpa [StationWork.cold] using hd
      obtain ⟨cause, hc⟩ := (h.1.1.2.2 i).damaged marked
      simp [hs] at hc⟩ }

/-- What stands behind quiet changes on either hand stands behind them. -/
theorem QuietSteady.or {P Q : State → Prop} (hP : QuietSteady P) (hQ : QuietSteady Q) : QuietSteady fun s => P s ∨ Q s where
  raise k n e v := Or.imp (hP.raise k n e v) (hQ.raise k n e v)
  soft i w hw := Or.imp (hP.soft i w hw) (hQ.soft i w hw)
  aim i r := Or.imp (hP.aim i r) (hQ.aim i r)
  enter i n l f he hn ht := Or.imp (hP.enter i n l f he hn ht) (hQ.enter i n l f he hn ht)
  enterAim i n l f r he := Or.imp (hP.enterAim i n l f r he) (hQ.enterAim i n l f r he)
  standDown i := Or.imp (hP.standDown i) (hQ.standDown i)
  sampler k hk := Or.imp (hP.sampler k hk) (hQ.sampler k hk)
  drive d hd := Or.imp (hP.drive d hd) (hQ.drive d hd)
  elapsed v := Or.imp (hP.elapsed v) (hQ.elapsed v)
  restartDue v := Or.imp (hP.restartDue v) (hQ.restartDue v)
  link v := Or.imp (hP.link v) (hQ.link v)
  control v := Or.imp (hP.control v) (hQ.control v)
  monitor v := Or.imp (hP.monitor v) (hQ.monitor v)
  roundTimer v := Or.imp (hP.roundTimer v) (hQ.roundTimer v)
  events u hu := Or.imp (hP.events u hu) (hQ.events u hu)
  senseMark v := Or.imp (hP.senseMark v) (hQ.senseMark v)
  releaseLine := Or.imp hP.releaseLine hQ.releaseLine
  rewriteWords ws := Or.imp (hP.rewriteWords ws) (hQ.rewriteWords ws)
  marks m hm hd hr := Or.imp (hP.marks m hm hd hr) (hQ.marks m hm hd hr)
  notice n := Or.imp (hP.notice n) (hQ.notice n)
  cast n := Or.imp (hP.cast n) (hQ.cast n)
  pinned i v := Or.imp (hP.pinned i v) (hQ.pinned i v)
  unassign i hs := Or.imp (hP.unassign i hs) (hQ.unassign i hs)

theorem judgeable_quiet (s₀ : State) : QuietSteady (Judgeable s₀) := (undamaged_quiet s₀).or (foundIn_steady s₀).quiet

/-! ### Reads find damage or change no condition -/

theorem judgeable_readWord {s₀ : State} {run : Reader} (hr : ∀ {P}, PartSteady P → ReaderKeeps P run) (w : Nat)
    (h : Judgeable s₀ s) : Judgeable s₀ (readWord run w s) := by
  rcases h with h | found
  case inr => exact .inr ((foundIn_steady s₀).readWord (hr (foundIn_steady s₀)) w found)
  obtain ⟨⟨hR, wf, few, bits⟩, current⟩ := h
  unfold readWord
  match hn : countBits (wrongBitsIn s.memory.wrongBits w) with
  | 0 => exact .inl ⟨⟨hR, wf, few, bits⟩, current⟩
  | 1 =>
    exact .inl ⟨(records_steady.and (bitsOf_steady s₀)).memory _ (correct_step w _) ⟨hR, wf, few, bits⟩,
      current_memory rfl current⟩
  | 2 =>
    refine .inr ?_
    have wrong : wrongBitsIn s.memory.wrongBits w ≠ 0 := fun e => by rw [e, countBits_zero] at hn; omega
    have two : 2 ≤ countBits (wrongBitsIn s₀.memory.wrongBits w) := by
      rw [← (bits w).resolve_right wrong, hn]
    have listed := (list_step w s.memory).trans (rewrite_step w (s.memory.list w))
    have found : FoundIn s₀ { s with memory := (s.memory.list w).rewrite w } :=
      ⟨listed.wf wf, listed.few few, w, two, (rewrite_good w (list_wf w wf)).1⟩
    have hF := foundIn_steady s₀
    exact hF.ownerHandles (hr hF) w (hr hF _ _ _ (fun _ => hF.raise _ _ _ _) found)
  | n + 3 =>
    have := count_le_of_few few w
    omega

theorem judgeable_check {s₀ : State} (need : State → List Nat) (h : Judgeable s₀ s) : Judgeable s₀ (check need s) := by
  unfold check
  generalize s.memory.wrongBits.length = n
  cases n with
  | zero => exact h
  | succ n =>
    refine readInTurn_keeps (fun w t ht => judgeable_readWord (fun hP => ?_) w ht) _ _ _ h
    exact hP.behind fun need _ => hP.checkWith n need

theorem judgeable_checked (s₀ : State) : ReaderKeeps (Judgeable s₀) checked := by
  intro need work s hw h
  rw [checked, behind_eq]
  unfold noteWrites
  split
  · exact hw _ (judgeable_check _ h)
  · exact (judgeable_quiet s₀).rewriteWords _ (hw _ (judgeable_check _ h))

/-! ### The evaluation behind a command -/

theorem foundDamage_of_found {s₀ : State} (h : FoundIn s₀ t) : foundDamage s₀ t = true := by
  obtain ⟨-, -, w, hw, found⟩ := h
  have wrong : wrongBitsIn s₀.memory.wrongBits w ≠ 0 := fun e => by rw [e, countBits_zero] at hw; omega
  simp only [foundDamage, List.any_eq_true, Bool.and_eq_true, decide_eq_true_eq]
  refine ⟨_, mem_of_wrongBitsIn wrong, hw, ?_⟩
  rw [found]
  exact wrong.symm

theorem current_judgeFound {s₀ : State} (h : Judgeable s₀ t) : Current (judgeFound s₀ t) := by
  unfold judgeFound
  split
  · exact current_judge _ _
  case isFalse quiet => exact (h.resolve_right fun found => quiet (foundDamage_of_found found)).2

theorem current_carryOut {s₀ : State} {work : Work} (hw : ∀ u, Judgeable s₀ u → Judgeable s₀ (work plain u))
    (need : State → List Nat) (h : Judgeable s₀ t) : Current (judgeFound s₀ (checked need work t)) :=
  current_judgeFound (judgeable_checked s₀ _ _ _ hw h)

end Conditions

end Sys2Proof.Proofs
end

section
/-! The trip function output behind every row of the catalogue and every other command: O12. -/

namespace Sys2Proof.Proofs

open Sys2Proof Sys2Proof.Machine Sys2Proof.Laws

section Commands

variable {s t s₀ : State} {row : RequestRow}

/-! ### Changes of mode and restarts -/

/-- A change that leaves the table and the memory alone, and a current output current. -/
theorem judgeable_congr (hst : t.stations = s.stations) (hm : t.memory = s.memory) (hc : Current s → Current t)
    (h : Judgeable s₀ s) : Judgeable s₀ t := by
  refine h.imp (fun ⟨⟨hR, hB⟩, current⟩ => ⟨⟨recordsSound_congr hR (hm ▸ .refl _) hst, ?_⟩, hc current⟩) fun hF => ?_
  · unfold FoundIn at *
    rwa [hm]
  · unfold BitsOf at *
    rwa [hm]

theorem judgeable_self (hR : RecordsSound s) (h : Current s) : Judgeable s s :=
  .inl ⟨⟨hR, hR.1, hR.2.1, fun _ => .inl rfl⟩, h⟩

theorem judgeable_setMode (m : BankMode) (h : Judgeable s₀ s) : Judgeable s₀ (setMode m s) :=
  judgeable_congr (s := s) rfl rfl (fun h => h) h

theorem startSampler_fault (s : State) : (startSampler plain s).sampler.analyserFault = s.sampler.analyserFault := by
  unfold startSampler
  split
  · split
    · rfl
    · exact (select_step { s with sampler := { s.sampler with phase := .idle } }).fault
  · rfl

theorem judgeable_startSampler (h : Judgeable s₀ s) : Judgeable s₀ (startSampler plain s) := by
  have only := startSampler_samplerOnly s
  refine judgeable_congr (by rw [only]) (by rw [only]) (current_samplerOnly only (startSampler_fault s)) h

theorem judgeable_handRun (h : Judgeable s₀ s) : Judgeable s₀ (handRun checked s) :=
  judgeable_checked s₀ _ _ _ (fun _ => judgeable_startSampler)
    (judgeable_checked s₀ _ _ _ (fun _ => (judgeable_quiet s₀).runOrder) h)

theorem judgeable_handStop (h : Judgeable s₀ s) : Judgeable s₀ (handStop checked s) := by
  have stopped : Judgeable s₀ (checked noWords stopOrder s) := by
    refine judgeable_checked s₀ _ _ _ (fun t ht => ?_) h
    rw [stopOrder_plain]
    exact (judgeable_quiet s₀).drive _ (.of_sublist (List.nil_sublist _) (List.nil_sublist _)) ht
  exact judgeable_congr (s := checked noWords stopOrder s) rfl rfl (current_sampler rfl) stopped

theorem current_cold (p : Pins) (q : List Instr) : Current (State.cold p q) := rfl

theorem current_warmRestart (s : State) : Current (warmRestart s) := by
  have evaluated : Current (tripIfDue checked (checked (fun _ => [403, 404, 405, 406, 407])
      (fun a t => evaluateOutput a (beginScrub t)) (warmRestartBare s))) :=
    current_tripIfDue (current_checked (fun t => current_evaluateOutput (beginScrub t)) _ _)
  unfold warmRestart
  dsimp only
  unfold judgeFound
  split
  · exact current_judge _ _
  · exact evaluated

theorem current_restartAs (k : Option RestartKind) (h : Current s) : Current (restartAs k s) := by
  match k with
  | none => exact h
  | some .cold => exact current_cold _ _
  | some .warm => exact current_warmRestart s

/-! ### Rows of the catalogue -/

/-- An answer behind which the output is evaluated, or which changes no trip condition, or which goes on to refresh the
output. -/
def AnswerCurrent (s₀ : State) (a : Answer) : Prop :=
  a.evaluates = true ∨ AnswerKeeps (Judgeable s₀) a ∨ ∀ u, Current (a.onward u)

/-- The owner of a row that is no query answers so. -/
def RowCurrent (row : RequestRow) : Prop :=
  row.query = false → ∀ s₀ p body t, Judgeable s₀ t → AnswerCurrent s₀ (row.act plain p body t)

theorem rowCurrent_of_act (h : ∀ s₀, ActKeeps (Judgeable s₀) row) : RowCurrent row :=
  fun _ s₀ p body t ht => .inr (.inl (h s₀ p body t ht))

theorem current_ownerAnswers (hk : RowKeeps RecordsSound row) (hrow : RowCurrent row) (p : Port) (body : List Byte)
    (hR : RecordsSound s) (h : Current s) : Current (ownerAnswers row p body s).state := by
  have read := judgeable_check (fun u => row.reads body u ++ usedWords (row.work p body) u) (judgeable_self hR h)
  unfold ownerAnswers
  dsimp only
  split
  case isTrue hq =>
    refine current_noteWrites _ _ ?_
    rw [hk.1 hq]
    exact current_judgeFound read
  case isFalse hq =>
    have answer := hrow (by simpa using hq) s p body _ read
    unfold Answer.settled
    dsimp only
    split
    · exact current_judge _ _
    case isFalse quiet =>
      simp only [Bool.or_eq_true, not_or, Bool.not_eq_true] at quiet
      obtain ⟨unevaluated, unfound⟩ := quiet
      rcases answer with evaluates | ⟨stored, onward⟩ | refreshed
      · exact absurd evaluates (by simpa [RequestRow.answer] using unevaluated)
      · have noted : Judgeable s (row.answer p body (check (fun u => row.reads body u ++ usedWords (row.work p body) u)
            s)).state := by
          dsimp only [RequestRow.answer]
          unfold noteWrites
          split
          · exact stored
          · exact (judgeable_quiet s).rewriteWords _ stored
        have done := onward _ noted
        refine (done.resolve_right fun found => ?_).2
        have : foundDamage s ((row.act plain p body (check (fun u => row.reads body u ++ usedWords (row.work p body) u)
          s)).onward (row.answer p body (check (fun u => row.reads body u ++ usedWords (row.work p body) u) s)).state) = true :=
          foundDamage_of_found found
        exact absurd this (by simpa [RequestRow.answer] using unfound)
      · exact refreshed _

theorem current_setPort (p : Port) (v : PortState) (h : Current s) : Current (s.setPort p v) := by
  cases p <;> exact h

theorem current_takeRequest (hk : RowKeeps RecordsSound row) (hrow : RowCurrent row) (r : Request) (hR : RecordsSound s)
    (h : Current s) : Current (takeRequest row r s) := by
  have got : Current (received r.port s) := current_setPort _ _ h
  have sound : RecordsSound (received r.port s) := records_steady.setPort _ _ hR
  have answered : Current (answerTo row r (received r.port s)).state := by
    unfold answerTo
    split
    · exact got
    · split
      · exact got
      · exact current_ownerAnswers hk hrow _ _ sound got
  unfold takeRequest
  dsimp only
  split
  · exact got
  · split
    · exact got
    · exact current_restartAs _ answered
  · exact current_setPort _ _ answered

theorem stationSet_evaluates (i : StationIx) (items : List Item) (t : State) :
    stationSet plain i items t = accept t ∨ stationSet plain i items t = refuse .badValue t ∨
      (stationSet plain i items t).evaluates = true := by
  unfold stationSet
  cases (t.work i).state.assigned
  case true =>
    simp only [Bool.not_true, Bool.false_eq_true, ↓reduceIte, Bool.not_false, Bool.and_true]
    split
    · exact .inl rfl
    · split
      · exact .inr (.inl rfl)
      · exact .inr (.inr rfl)
  case false =>
    simp only [Bool.not_false, Bool.not_true, Bool.and_false, Bool.false_eq_true, ↓reduceIte]
    split
    · exact .inr (.inl rfl)
    · exact .inr (.inr rfl)

theorem stationSetRow_current : RowCurrent stationSetRow := by
  intro _ s₀ p body t ht
  have refused : AnswerCurrent s₀ (refuse .badValue t) := .inr (.inl ⟨ht, fun _ h => h⟩)
  dsimp only [stationSetRow]
  split
  case h_2 => exact refused
  case h_1 i _ =>
    split
    case isFalse => exact refused
    case isTrue =>
      rcases stationSet_evaluates i (itemsOf (body.drop 1)) t with e | e | e
      · rw [e]
        exact .inr (.inl ⟨ht, fun _ h => h⟩)
      · rw [e]
        exact refused
      · exact .inl e

theorem bankSetRow_current : RowCurrent bankSetRow := by
  intro _ s₀ p body t ht
  dsimp only [bankSetRow]
  split
  · unfold bankSet
    split
    · exact .inr (.inl ⟨ht, fun _ h => h⟩)
    · split
      · exact .inr (.inl ⟨ht, fun _ h => h⟩)
      · split
        · exact .inr (.inl ⟨ht, fun _ h => h⟩)
        · exact .inl rfl
  · exact .inr (.inl ⟨ht, fun _ h => h⟩)

/-- A TRIP SET of the pulse width alone leaves the function and its terms. -/
theorem carry_pulseWidth {items : List Item} (h : ∀ it ∈ items, it.code = 9) (c : TripSettings) :
    c.carry items = { c with pulseWidth := (c.carry items).pulseWidth } := by
  induction items generalizing c with
  | nil => rfl
  | cons it rest ih =>
    have first : c.store it.code it.value = { c with pulseWidth := PulseWidth.ofCode it.value } := by
      rw [h it List.mem_cons_self]
      rfl
    have tail := ih (fun x hx => h x (List.mem_cons_of_mem _ hx)) (c.store it.code it.value)
    have step : c.carry (it :: rest) = (c.store it.code it.value).carry rest := rfl
    rw [step, tail, first]

theorem current_storeTrip {items : List Item} (hi : ∀ it ∈ items, it.code = 9) (h : Current s) :
    Current (storeTrip items s) := by
  refine current_rewriteWords _ ?_
  show s.trip.output = functionValue { s with settings := { s.settings with trip := s.settings.trip.carry items } }
  rw [carry_pulseWidth hi]
  exact h

theorem tripSetRow_current : RowCurrent tripSetRow := by
  intro _ s₀ p body t ht
  dsimp only [tripSetRow]
  split
  · unfold tripSet
    split
    · exact .inr (.inr fun _ => current_evaluateTrip _ _)
    case isFalse pulse =>
      have alone : ∀ it ∈ itemsOf body, it.code = 9 := by simpa using pulse
      refine .inr (.inl ⟨?_, fun _ h => h⟩)
      have settings : PartSteady (BitsOf s₀) := bitsOf_steady s₀
      refine ht.imp (fun ⟨⟨hR, hB⟩, current⟩ => ⟨⟨storeTrip_keeps records_steady _ hR, storeTrip_keeps settings _ hB⟩,
        current_storeTrip alone current⟩) (storeTrip_keeps (foundIn_steady s₀) _)
  · exact .inr (.inl ⟨ht, fun _ h => h⟩)

theorem clearAnalyserRow_current : RowCurrent clearAnalyserRow := fun _ _ _ _ _ _ => .inl rfl

theorem integrityClearRow_current : RowCurrent integrityClearRow := fun _ _ _ _ _ _ => .inl rfl

theorem modeRow_current {operation : Nat} {act : State → Answer}
    (h : ∀ s₀ t, Judgeable s₀ t → AnswerCurrent s₀ (act t)) : RowCurrent (modeRow operation act) := by
  intro _ s₀ p body t ht
  dsimp only [modeRow]
  split
  · exact h s₀ t ht
  · exact .inr (.inl ⟨ht, fun _ h => h⟩)

theorem runRow_current : RowCurrent runRow := by
  refine modeRow_current fun s₀ t ht => .inr (.inl ?_)
  unfold runRequest
  split
  · exact ⟨judgeable_setMode _ ht, fun _ => judgeable_handRun⟩
  · exact ⟨ht, fun _ h => h⟩
  · exact ⟨ht, fun _ h => h⟩

theorem modeStopRow_current : RowCurrent modeStopRow := by
  refine modeRow_current fun s₀ t ht => ?_
  unfold modeStopRequest
  split
  · exact .inr (.inl ⟨ht, fun _ h => h⟩)
  · exact .inr (.inl ⟨judgeable_setMode _ ht, fun _ => judgeable_handStop⟩)
  · split
    · exact .inr (.inl ⟨ht, fun _ h => h⟩)
    · exact .inl rfl

theorem resumeRow_current : RowCurrent resumeRow := by
  refine modeRow_current fun s₀ t ht => ?_
  unfold resumeRequest
  split
  case h_3 =>
    split
    · exact .inr (.inl ⟨ht, fun _ h => h⟩)
    · exact .inl rfl
  all_goals exact .inr (.inl ⟨ht, fun _ h => h⟩)

theorem tripNowRow_current : RowCurrent tripNowRow := by
  refine modeRow_current fun s₀ t ht => ?_
  unfold tripNowRequest
  split
  · exact .inr (.inl ⟨ht, fun _ h => h⟩)
  · exact .inr (.inr fun _ => current_refreshOutput _)

theorem rowCurrent_query (h : row.query = true) : RowCurrent row := fun hf => absurd h (by simp [hf])

theorem row_current {c : Instr} {r : Request} (hc : requestOf c = some (row, r)) : RowCurrent row := by
  cases c <;> simp only [requestOf, Option.some.injEq, Prod.mk.injEq, reduceCtorEq] at hc <;> obtain ⟨rfl, rfl⟩ := hc
  case ident => exact rowCurrent_query rfl
  case status => exact rowCurrent_query rfl
  case stationQuery => exact rowCurrent_query rfl
  case bankQuery => exact rowCurrent_query rfl
  case sweepQuery => exact rowCurrent_query rfl
  case tripQuery => exact rowCurrent_query rfl
  case integrityQuery => exact rowCurrent_query rfl
  case peekEvents => exact rowCurrent_query rfl
  case stationSet => exact stationSetRow_current
  case start => exact rowCurrent_of_act fun s₀ => startRow_act (judgeable_quiet s₀).toTableSteady
  case stationStop => exact rowCurrent_of_act fun s₀ => stopRow_act (judgeable_quiet s₀).toTableSteady
  case isolate => exact rowCurrent_of_act fun s₀ => isolateRow_act (judgeable_quiet s₀).toTableSteady
  case release => exact rowCurrent_of_act fun s₀ => releaseRow_act (judgeable_quiet s₀).toTableSteady
  case clearFault => exact rowCurrent_of_act fun s₀ => clearFaultRow_act (judgeable_quiet s₀).toTableSteady
  case unassign => exact rowCurrent_of_act fun s₀ => unassignRow_act (judgeable_quiet s₀)
  case pin => exact rowCurrent_of_act fun s₀ => commandRow_act fun i t => pinCommand_keeps (judgeable_quiet s₀) true i
  case unpin => exact rowCurrent_of_act fun s₀ => commandRow_act fun i t => pinCommand_keeps (judgeable_quiet s₀) false i
  case sampleNow => exact rowCurrent_of_act fun s₀ => sampleNowRow_act (judgeable_quiet s₀).toTableSteady
  case sweepSet => exact rowCurrent_of_act fun s₀ => sweepSetRow_act (judgeable_quiet s₀) (judgeable_checked s₀)
  case lineSet => exact rowCurrent_of_act fun s₀ => lineSetRow_act (judgeable_quiet s₀)
  case clearLine => exact rowCurrent_of_act fun s₀ => clearLineRow_act (judgeable_quiet s₀) (judgeable_checked s₀)
  case clearAnalyser => exact clearAnalyserRow_current
  case bankSet => exact bankSetRow_current
  case tripSet => exact tripSetRow_current
  case run => exact runRow_current
  case modeStop => exact modeStopRow_current
  case resume => exact resumeRow_current
  case tripNow => exact tripNowRow_current
  case takeEvents => exact rowCurrent_of_act fun s₀ => takeEventsRow_act (judgeable_quiet s₀)
  case noticeSet => exact rowCurrent_of_act fun s₀ => noticeSetRow_act (judgeable_quiet s₀)
  case clearNotice => exact rowCurrent_of_act fun s₀ => clearNoticeRow_act (judgeable_quiet s₀)
  case castSet => exact rowCurrent_of_act fun s₀ => castSetRow_act (judgeable_quiet s₀)
  case integrityClear => exact integrityClearRow_current
  case restartCold => exact rowCurrent_of_act fun s₀ => restartRow_act _ .cold
  case restartWarm => exact rowCurrent_of_act fun s₀ => restartRow_act _ .warm

/-! ### The timers and the lines -/

theorem current_carryOut_self {work : Work} (hR : RecordsSound s) (h : Current s) (need : State → List Nat)
    (hw : ∀ s₀ u, Judgeable s₀ u → Judgeable s₀ (work plain u)) : Current (carryOut need work s) :=
  current_carryOut (hw s) need (judgeable_self hR h)

theorem current_carryOut_passed {work : Work} (hR : RecordsSound s) (h : Current s) (n : Nat) (need : State → List Nat)
    (hw : ∀ s₀ u, Judgeable s₀ u → Judgeable s₀ (work plain u)) : Current (carryOut need work (passUntil n s)) :=
  current_carryOut_self (s := passUntil n s) (records_steady.passUntil n hR) h need hw

theorem current_reachSettle (i : StationIx) (hR : RecordsSound s) (h : Current s) : Current (reachSettle i s) := by
  unfold reachSettle
  split
  · exact current_carryOut_passed hR h _ _ fun s₀ _ => (judgeable_quiet s₀).settleReachedAgain i
  · exact h

theorem current_reachRound (h : Current s) : Current (reachRound s) := by
  unfold reachRound
  split
  · exact current_judge _ _
  · exact h

theorem current_reachLead (hR : RecordsSound s) (h : Current s) : Current (reachLead s) := by
  unfold reachLead
  split
  · split
    · exact current_carryOut_passed hR h _ _ fun s₀ _ => (judgeable_quiet s₀).leadReached
    · exact h
  · exact h

theorem current_fallOfMark (hR : RecordsSound s) (h : Current s) : Current (fallOfMark s) := by
  unfold fallOfMark
  split
  · exact current_judge _ _
  · exact current_carryOut_self hR h _ fun s₀ _ => (judgeable_quiet s₀).markFalls

theorem current_reachLoss (h : Current s) : Current (reachLoss s) := by
  unfold reachLoss
  split
  · split
    · exact current_judge _ _
    · exact h
  · exact h

theorem current_endStartGap (hR : RecordsSound s) (h : Current s) : Current (endStartGap s) := by
  unfold endStartGap
  split
  · exact current_carryOut_passed hR h _ _ fun s₀ _ => (judgeable_quiet s₀).grantTest
  · exact h

theorem current_reachInchPeriod (i : StationIx) (hR : RecordsSound s) (h : Current s) : Current (reachInchPeriod i s) := by
  unfold reachInchPeriod
  split
  · split
    · exact current_carryOut_passed hR h _ _ fun s₀ _ => (judgeable_quiet s₀).inchPeriodReached i
    · exact h
  · exact h

theorem current_reachPauseEnd (i : StationIx) (hR : RecordsSound s) (h : Current s) : Current (reachPauseEnd i s) := by
  unfold reachPauseEnd
  split
  · split
    · exact current_carryOut_passed hR h _ _ fun s₀ _ => (judgeable_quiet s₀).pauseReached i
    · exact h
  · exact h

theorem current_reachTimeout (i : StationIx) (hR : RecordsSound s) (h : Current s) : Current (reachTimeout i s) := by
  unfold reachTimeout
  split
  · exact current_carryOut_passed hR h _ _ fun s₀ _ => (judgeable_quiet s₀).timeoutReached i
  · exact h

theorem current_reachPersistence (hR : RecordsSound s) (h : Current s) : Current (reachPersistence s) := by
  unfold reachPersistence
  split
  case h_2 => exact h
  case h_1 timer _ =>
    split
    · exact h
    · have passed := (judgeable_quiet s).passUntil (timer + persistenceOf s.settings.trip.persistence) (judgeable_self hR h)
      have read := (judgeable_checked s).nothing (fun _ => [404, 405]) passed
      unfold persistenceReached
      dsimp only
      split
      · unfold judgeFound
        split
        · exact current_judge _ _
        · exact current_refreshOutput _
      · exact current_judgeFound read

theorem current_scrub (hR : RecordsSound s) (h : Current s) : Current (scrub s) :=
  current_carryOut_passed hR h _ _ fun s₀ _ => (judgeable_quiet s₀).nextScrub _

theorem current_endPurge (flow fault : Bool) (h : Current s) : Current (endPurge flow fault s) := by
  unfold endPurge
  split
  · split
    · exact current_judge _ _
    · exact h
  · exact h

theorem current_nextReading (fault : Bool) (h : Current s) : Current (nextReading fault s) := by
  unfold nextReading
  split
  · exact current_judge _ _
  · exact h

theorem current_runConversion (codes : Vector Code 35) (_ : Current s) : Current (runConversion codes s) := current_judge _ _

/-- A command that changes no trip condition and reads nothing. -/
theorem current_of_quiet {f : State → State} (hf : ∀ {P}, QuietSteady P → P s → P (f s)) (hR : RecordsSound s)
    (h : Current s) : Current (f s) :=
  (hf (undamaged_quiet s) ⟨⟨hR, hR.1, hR.2.1, fun _ => .inl rfl⟩, h⟩).2

/-! ### Every command -/

theorem current_receive (p : Port) (bytes : List Byte) (h : Current s) : Current (receive p bytes s) := current_setPort p _ h

theorem current_perform {f : State → State} (hf : Current s → Current (f s)) (h : Current s) (ht : perform f s = .next t) :
    Current t := perform_keeps (P := Current) hf h ht

theorem current_fieldChange {pins : Pins} (hp : s.powered = true) (ht : fieldChange pins s = .next t) : Current t := by
  obtain rfl : judge s { s with pins := pins } = t := by simpa [fieldChange, perform, hp] using ht
  exact current_judge _ _

/-- Every command of a powered part leaves the output current. -/
theorem current_exec {c : Instr} (hp : s.powered = true) (hR : RecordsSound s) (h : Current s) (ht : exec c s = .next t) :
    Current t := by
  cases hc : requestOf c with
  | some a =>
    rw [exec_of_request hc] at ht
    exact current_perform (current_takeRequest (records_modeSteady.row (fun _ => trivial) hc) (row_current hc) a.2 hR) h ht
  | none =>
    cases c <;> simp only [requestOf, reduceCtorEq] at hc
    case unknownKind kind r =>
      exact current_perform (current_of_quiet (fun hP => takeUnknown_keeps hP kind r) hR) h ht
    case coldRestart =>
      obtain rfl : coldRestart s = t := by simpa [exec, execColdRestart] using ht
      exact current_cold _ _
    case warmRestart =>
      refine current_perform (fun h => ?_) h ht
      split
      · exact current_warmRestart s
      · exact h
    case frameSilenceTimeout p bytes =>
      rw [exec_frameSilenceTimeout] at ht
      exact current_perform (fun h => current_setPort p _ (current_receive p bytes h)) h ht
    case frameCheckFail p bytes => exact current_perform (current_receive p bytes) h ht
    case reply p => exact current_perform (current_of_quiet (fun hP => beginReply_keeps hP p) hR) h ht
    case replySent p => exact current_perform (current_of_quiet (fun hP => endReply_keeps hP p) hR) h ht
    case notice => exact current_perform (current_of_quiet (fun hP => beginNotice_keeps hP) hR) h ht
    case eventCopy => exact current_perform (current_of_quiet (fun hP => beginCopy_keeps hP) hR) h ht
    case conversion codes => exact current_perform (current_runConversion codes) h ht
    case changeoverEnd => exact current_perform (current_of_quiet (fun hP => endChangeover_keeps hP) hR) h ht
    case purgeEnd flow fault => exact current_perform (current_endPurge flow fault) h ht
    case reading fault => exact current_perform (current_nextReading fault) h ht
    case settleExpiry i => exact current_perform (current_reachSettle i hR) h ht
    case roundTimerExpiry => exact current_perform current_reachRound h ht
    case markLead => exact current_perform (current_reachLead hR) h ht
    case markPulseEnd => exact current_perform (current_of_quiet (fun hP => endMarkPulse_keeps hP) hR) h ht
    case markRise =>
      replace ht : execMarkRise s = .next t := ht
      unfold execMarkRise at ht
      split at ht
      · cases ht; exact h
      · exact current_perform (fun h => current_carryOut_self hR h _ fun s₀ _ => (judgeable_quiet s₀).markRises) h ht
    case markFall =>
      replace ht : execMarkFall s = .next t := ht
      unfold execMarkFall at ht
      split at ht
      · cases ht; exact h
      · exact current_perform (current_fallOfMark hR) h ht
    case linkLost => exact current_perform current_reachLoss h ht
    case startGapEnd => exact current_perform (current_endStartGap hR) h ht
    case inchPeriod i => exact current_perform (current_reachInchPeriod i hR) h ht
    case inchPulseEnd i => exact current_perform (current_of_quiet (fun hP => endInchPulse_keeps hP i) hR) h ht
    case reversalPauseEnd i => exact current_perform (current_reachPauseEnd i hR) h ht
    case timeout i => exact current_perform (current_reachTimeout i hR) h ht
    case persistenceExpiry => exact current_perform (current_reachPersistence hR) h ht
    case pumpRunContact v => exact current_fieldChange (pins := { s.pins with pumpOpen := v }) hp ht
    case arrestorContact v => exact current_fieldChange (pins := { s.pins with arrestorClosed := v }) hp ht
    case tripLineSensed v => exact current_fieldChange (pins := { s.pins with tripLineOthers := v }) hp ht
    case tripPulseEnd => exact current_perform (current_of_quiet (fun hP => endTripPulse_keeps hP) hR) h ht
    case scrub => exact current_perform (current_scrub hR) h ht
    case writeBack w => exact current_perform (current_of_quiet (fun hP => writeBack_keeps hP w) hR) h ht
    case blinkDropEnd => exact current_perform (current_of_quiet (fun hP => endBlinkDrop_keeps hP) hR) h ht
    case frameLengthDiscard p a k l => exact current_perform (current_receive p _) h ht
    case frameIgnored p a k b => exact current_perform (current_receive p _) h ht
    case powerLoss =>
      obtain rfl : losePower s = t := by simpa [exec, execPowerLoss] using ht
      exact current_cold s.pins s.pending

/-! ### Power -/

theorem powered_modeSteady : ModeSteady (fun s => s.powered = true) (fun s => s.powered = true) (fun s => s.powered = true)
    True := by
  have rest : PartSteady fun s => s.powered = true := .of_blocks fun h hs => h.powered.trans hs
  refine ⟨rest, rest, rest, fun _ h => h, ?started, fun _ _ h => h, fun _ _ h => h, fun _ h => h, fun _ h => h,
    fun _ h => h, fun _ => rfl, fun _ => rfl⟩
  intro s h
  rw [startSampler_samplerOnly s]
  exact h

/-- With the function OFF the output is false whatever the conditions. -/
theorem functionValue_off (h : s.settings.trip.function = .off) : functionValue s = false := by
  simp [functionValue, TripFunction.value, h]

theorem outputCurrent_cold (p : Pins) (q : List Instr) : OutputCurrent (State.cold p q) := ⟨rfl, fun _ => rfl⟩

theorem outputCurrent_losePower (s : State) : OutputCurrent (losePower s) := ⟨rfl, fun _ => rfl⟩

/-- Without power the function is OFF, so that a field level that changes leaves the output current. -/
theorem outputCurrent_pins (pins : Pins) (hp : s.powered = false) (h : OutputCurrent s) :
    OutputCurrent { s with pins := pins } := by
  obtain ⟨current, off⟩ := h
  refine ⟨?_, fun _ => off hp⟩
  rw [functionValue_off (s := { s with pins := pins }) (off hp)]
  exact current.trans (functionValue_off (off hp))

/-- A part without power stands still but for its field levels and a restart (log 11). -/
theorem exec_unpowered (c : Instr) (hp : s.powered = false) (hc : c ≠ .coldRestart) (hl : c ≠ .powerLoss) :
    ∃ p, exec c s = .next { s with pins := p } := by
  have still (f : State → State) : perform f s = .next { s with pins := s.pins } := perform_unpowered f hp
  cases hr : requestOf c with
  | some a => exact ⟨s.pins, (exec_of_request hr s).trans (still _)⟩
  | none =>
    cases c <;> simp only [requestOf, reduceCtorEq] at hr
    case coldRestart => exact absurd rfl hc
    case powerLoss => exact absurd rfl hl
    case markRise =>
      show ∃ p, execMarkRise s = _
      unfold execMarkRise
      split
      · exact ⟨s.pins, rfl⟩
      · exact ⟨{ s.pins with markActive := true }, by simp [hp]⟩
    case markFall =>
      show ∃ p, execMarkFall s = _
      unfold execMarkFall
      split
      · exact ⟨s.pins, rfl⟩
      · exact ⟨{ s.pins with markActive := false }, by simp [hp]⟩
    case pumpRunContact v => exact ⟨{ s.pins with pumpOpen := v }, perform_unpowered (s := { s with pins := _ }) (judge s) hp⟩
    case arrestorContact v => exact ⟨{ s.pins with arrestorClosed := v }, perform_unpowered (s := { s with pins := _ }) (judge s) hp⟩
    case tripLineSensed v => exact ⟨{ s.pins with tripLineOthers := v }, perform_unpowered (s := { s with pins := _ }) (judge s) hp⟩
    case frameSilenceTimeout p bytes => exact ⟨s.pins, (exec_frameSilenceTimeout p bytes s).trans (still _)⟩
    all_goals exact ⟨s.pins, perform_unpowered _ hp⟩

/-- Settles O15. -/
theorem unpoweredPartStandsStill : Obligations.UnpoweredPartStandsStill := by
  unfold Obligations.UnpoweredPartStandsStill
  exact fun c s => exec_unpowered c

theorem outputCurrent_exec {c : Instr} (hR : RecordsSound s) (h : OutputCurrent s) (ht : exec c s = .next t) :
    OutputCurrent t := by
  cases hp : s.powered
  case true =>
    refine ⟨current_exec hp hR h.1 ht, fun hf => ?_⟩
    by_cases hl : c = .powerLoss
    · subst hl
      obtain rfl : losePower s = t := by simpa [exec, execPowerLoss] using ht
      exact (outputCurrent_losePower s).2 hf
    · have := powered_modeSteady.exec (fun _ => trivial) (fun e => absurd e hl) hp ht
      simp [hf] at this
  case false =>
    by_cases hc : c = .coldRestart
    · subst hc
      obtain rfl : coldRestart s = t := by simpa [exec, execColdRestart] using ht
      exact outputCurrent_cold _ _
    · by_cases hl : c = .powerLoss
      · subst hl
        obtain rfl : losePower s = t := by simpa [exec, execPowerLoss] using ht
        exact outputCurrent_losePower s
      · obtain ⟨p, hx⟩ := exec_unpowered c hp hc hl
        obtain rfl : { s with pins := p } = t := by simpa [hx] using ht
        exact outputCurrent_pins p hp h

/-- Settles O12: quiet work keeps the output current, and the rest is evaluated. -/
theorem stepKeepsOutput : Obligations.StepKeepsOutput := by
  unfold Obligations.StepKeepsOutput
  intro s t hT h ht
  have hR := tableSound_iff.1 hT
  unfold step at ht
  split at ht
  · obtain rfl : tick s = t := by simpa using ht
    unfold tick
    split <;> exact h
  case h_2 rest _ => exact outputCurrent_exec (s := s.withPending rest) (recordsSound_congr hR (.refl _) rfl) h ht

end Commands

end Sys2Proof.Proofs
end

section
/-! The machine, the ports and the queries: O1 to O3, O16 to O23. -/

namespace Sys2Proof.Proofs

open Sys2Proof Sys2Proof.Machine Sys2Proof.Laws

/-! ### The machine -/

/-- Settles O1. -/
theorem stepTakesFrontCommand : Obligations.StepTakesFrontCommand := by
  unfold Obligations.StepTakesFrontCommand
  intro s c rest h
  simp only [step, h]
  rfl

/-- Settles O2. -/
theorem idleStepTicks : Obligations.IdleStepTicks := by
  unfold Obligations.IdleStepTicks
  intro s h
  refine ⟨fun hp => ?_, fun hp => ?_⟩
  · simp [step, h, tick, hp, passUntil]
  · simp [step, h, tick, hp]

/-- Settles O3: each invariant is one of those that a cold restart leaves. -/
theorem resetIsSound : Obligations.ResetIsSound := by
  unfold Obligations.ResetIsSound
  have table : TableSound State.reset := tableSound_iff.2 (coldPart_sound Pins.quiet [])
  have sampling : SamplingKept State.reset := ⟨table.few, samplingOf_cold _ _ _⟩
  obtain ⟨-, claims, entries⟩ := samplingKept_iff.1 sampling
  obtain ⟨bounded, notices⟩ := cold_events_sound
  refine ⟨?_, bounded, notices, ?_, ?_, ?_, ?_, ⟨table.memory, ?_⟩, table, claims, entries, outputCurrent_cold _ _⟩
  · simp [IsolationFollowsMode, State.reset, State.cold, BankControl.cold]
  · simp [SamplerPhased, State.reset, State.cold, Sampler.cold, BankControl.cold]
  · exact ⟨by simp [State.reset, State.cold, Sampler.cold], List.nodup_nil, sweepList_length _, by decide, by decide⟩
  · simp [TripSound, State.reset, State.cold, BankControl.cold, TripUnit.cold]
  · simp [DriveSound, State.reset, State.cold, Drive.cold, Settings.default, BankSettings.default]
  · simp [State.reset, State.cold, Memory.cold]

/-! ### Requests that reach no owner (R212, R213) -/

section Requests

variable {r : Request} {s : State} {row : RequestRow}

theorem taking_received (r : Request) (s : State) : taking r (received r.port s) = taking r s := by
  simp [taking, ownAddress]

/-- Settles O16. -/
theorem requestsWithNoEffect : Obligations.RequestsWithNoEffect := by
  unfold Obligations.RequestsWithNoEffect
  intro c row r s hc hp h
  rw [exec_of_request hc]
  refine performRequest_untaken row hp ?_
  rw [taking_received]
  rcases h with ⟨ha, h⟩ | ⟨ha, h⟩
  · exact .inl (taking_none ha h)
  · exact .inr ⟨taking_broadcast ha, h⟩

/-- A request that its port takes and the checks of R213 refuse holds the status alone. -/
theorem performRequest_refused {st : Status} (hp : s.powered = true) (ht : taking r s = .held)
    (ha : answerTo row r (received r.port s) = refuse st (received r.port s)) :
    performRequest row r s = .next (replied r.port row.kind [st.code] none s) := by
  rw [performRequest, perform_powered _ hp, takeRequest, taking_received, ht, ha]
  exact congrArg _ (holdAnswer_received ..)

/-- Settles O17. -/
theorem refusedBeforeOwner : Obligations.RefusedBeforeOwner := by
  unfold Obligations.RefusedBeforeOwner
  intro c row r s hc hp ha ho hh
  rw [exec_of_request hc]
  have ht := taking_held ha ho hh
  refine ⟨fun hq hm => performRequest_refused (st := .readOnly) hp ht ?_,
    fun hq hl => performRequest_refused (st := .badLength) hp ht ?_⟩
  · simp [answerTo, hq, hm]
  · have : ¬ ((decide (r.port = .monitor) && !row.query) = true) := by
      rcases hq with hq | hq <;> simp [hq]
    rw [answerTo, if_neg this, if_pos (by simp [hl])]

/-- Settles O18. -/
theorem unknownKindAnswered : Obligations.UnknownKindAnswered := by
  unfold Obligations.UnknownKindAnswered
  intro kind r s hk hp
  have act : exec (.unknownKind kind r) s = .next (takeUnknown kind r s) := perform_powered _ hp
  refine ⟨fun ha ho hh => ?_, fun ha => ?_⟩
  · rw [act, takeUnknown, taking_received, taking_held ha ho hh]
    dsimp only
    rw [if_pos hk]
    exact congrArg _ (holdAnswer_received ..)
  · rw [act, takeUnknown, taking_received, taking_broadcast ha]

end Requests

/-! ### Frames sent and frames not taken (R203, R207, R211 to R214) -/

/-- Settles O19. -/
theorem repliesBeginAndEnd : Obligations.RepliesBeginAndEnd := by
  unfold Obligations.RepliesBeginAndEnd
  intro p s h hp hh
  refine ⟨fun hs => ?_, fun hs => ?_⟩
  · have act : exec (.reply p) s = .next (beginReply p s) := perform_powered _ hp
    rw [act, beginReply, hh]
    dsimp only
    rw [if_neg (by simp [hs])]
    cases p <;> rfl
  · have act : exec (.replySent p) s = .next (endReply p s) := perform_powered _ hp
    rw [act, endReply, hh]
    dsimp only
    rw [if_pos hs]
    cases p <;> rfl

theorem one_eq (v : Nat) : one v = [BitVec.ofNat 8 v] := by simp [one, bytesOf]

/-- Settles O20. -/
theorem unsolicitedFrames : Obligations.UnsolicitedFrames := by
  unfold Obligations.UnsolicitedFrames
  refine ⟨fun s n rest hp hh hn => ?_, fun s k rest hp hh hk => ?_⟩
  · have act : exec .notice s = .next (beginNotice s) := perform_powered _ hp
    have begun : beginNotice s = beginFrame .control 0xE0 (noticeBody n s)
        (passUntil (lineFree .control s) { s with events := { s.events with notices := rest } }) := by
      simp only [beginNotice, hh, hn]
    have body : noticeBody n s = [BitVec.ofNat 8 n.class_, BitVec.ofNat 8 s.events.flags.toNat] := by
      simp only [noticeBody, one_eq, List.cons_append, List.nil_append]
    rw [act, begun, body]
    rfl
  · have act : exec .eventCopy s = .next (beginCopy s) := perform_powered _ hp
    have begun : beginCopy s = beginFrame .monitor 0xE1 (copyBody k)
        (passUntil (lineFree .monitor s) { s with events := { s.events with backlog := rest } }) := by
      simp only [beginCopy, hh, hk]
    rw [act, begun]
    rfl

section Receiver

/-- The receiver takes a counted body byte by byte (R211). -/
theorem takeAll_body (address kind length : Byte) (taken rest : List Byte) (hl : rest ≠ [])
    (hn : taken.length + rest.length = length.toNat) :
    Receiver.takeAll (.body address kind length taken) rest = .check address kind length (taken ++ rest) [] := by
  induction rest generalizing taken with
  | nil => exact absurd rfl hl
  | cons b rest ih =>
    show Receiver.takeAll (Receiver.take (.body address kind length taken) b) rest = _
    rw [List.length_cons] at hn
    cases rest with
    | nil =>
      rw [Receiver.take, if_neg (by simp at hn; omega)]
      rfl
    | cons b' rest' =>
      rw [Receiver.take, if_pos (by rw [List.length_cons] at hn; omega),
        ih (taken ++ [b]) (List.cons_ne_nil _ _) (by simp only [List.length_append, List.length_cons] at hn ⊢; simp; omega)]
      simp

/-- A whole frame brings the receiver from HUNT back to HUNT, whatever its check (R211). -/
theorem takeAll_frame (address kind length : Byte) (body check : List Byte) (hl : length.toNat ≤ maxBody)
    (hb : body.length = length.toNat) (hc : check.length = 2) :
    Receiver.takeAll .hunt (leadByte :: address :: kind :: length :: (body ++ check)) = .hunt := by
  obtain ⟨a, b, rfl⟩ := List.length_eq_two.1 hc
  have header : Receiver.takeAll .hunt (leadByte :: address :: kind :: length :: (body ++ [a, b])) =
      Receiver.takeAll (Receiver.behindHeader address kind length) (body ++ [a, b]) := rfl
  have checked (content : List Byte) : Receiver.takeAll (.check address kind length content []) [a, b] = .hunt := rfl
  have notLong : ¬ maxBody < length.toNat := by omega
  rw [header, Receiver.behindHeader, if_neg notLong, Receiver.takeAll, List.foldl_append]
  cases body with
  | nil =>
    have zero : length = 0 := BitVec.eq_of_toNat_eq (by simpa using hb.symm)
    rw [if_pos zero]
    exact checked []
  | cons x rest =>
    have some : length ≠ 0 := by
      rintro rfl
      simp at hb
    rw [if_neg some]
    have taken := takeAll_body address kind length [] (x :: rest) (List.cons_ne_nil _ _) (by simpa using hb)
    rw [Receiver.takeAll] at taken
    rw [taken]
    exact checked _

theorem takeAll_badCheck {bytes : List Byte} (h : badCheckFrame bytes = true) : Receiver.takeAll .hunt bytes = .hunt := by
  unfold badCheckFrame at h
  split at h
  case h_2 => simp at h
  case h_1 lead address kind length rest =>
    simp only [Bool.and_eq_true, decide_eq_true_eq] at h
    obtain ⟨⟨⟨rfl, hl⟩, hr⟩, -⟩ := h
    rw [← List.take_append_drop length.toNat rest]
    exact takeAll_frame address kind length _ _ hl (by simp; omega) (by simp; omega)

theorem receive_hunt {p : Port} {s : State} {bytes : List Byte} (hs : (s.port p).receiver = .hunt)
    (h : Receiver.takeAll .hunt bytes = .hunt) : receive p bytes s = s := by
  rw [receive, hs, h]
  cases p
  · simp only [State.port] at hs
    simp only [State.setPort, State.port, ← hs]
  · simp only [State.port] at hs
    simp only [State.setPort, State.port, ← hs]

/-- Settles O21. -/
theorem framesNotTaken : Obligations.FramesNotTaken := by
  unfold Obligations.FramesNotTaken
  intro s hp
  refine ⟨fun p bytes => ?_, fun p bytes hs hw => ?_, fun p address kind length hs hl => ?_, fun p address kind body hs hb => ?_⟩
  · rw [exec_frameSilenceTimeout, perform_powered _ hp]
    cases p <;> rfl
  · have act : exec (.frameCheckFail p bytes) s = .next (receive p bytes s) := perform_powered _ hp
    rw [act, receive_hunt hs (takeAll_badCheck hw)]
  · have act : exec (.frameLengthDiscard p address kind length) s =
        .next (receive p [leadByte, address, kind, length] s) := perform_powered _ hp
    rw [act, receive_hunt hs]
    exact if_pos hl
  · have act : exec (.frameIgnored p address kind body) s = .next (receive p (frameBytes address kind body) s) :=
      perform_powered _ hp
    have length : (BitVec.ofNat 8 body.length).toNat = body.length := by
      rw [BitVec.toNat_ofNat]
      omega
    rw [act, receive_hunt hs]
    exact takeAll_frame address kind _ body _ (by rw [length]; exact hb) length.symm rfl

end Receiver

/-! ### Queries (R216 to R218) -/

section Queries

variable {r : Request} {s : State}

theorem performRequest_query {kind : Byte} {reads : List Nat} {contents : Port → State → List Byte} (h : Taken r s)
    (hb : r.body = []) (hc : contents r.port (received r.port s) = contents r.port s) :
    performRequest (queryRow kind reads contents) r s = .next (replied r.port kind (0x00 :: contents r.port s) none s) := by
  rw [performRequest_unchanged h (.inl rfl) (by rw [hb]; rfl)
    (show (queryRow kind reads contents).act plain r.port r.body (received r.port s) =
      ⟨received r.port s, .ok, contents r.port (received r.port s), none, id, false⟩ from rfl), hc]
  rfl

theorem bytesOf_length (n v : Nat) : (bytesOf n v).length = n := by
  induction n with
  | zero => rfl
  | succ n ih => rw [bytesOf, List.length_cons, ih]

@[simp] theorem one_length (v : Nat) : (one v).length = 1 := bytesOf_length 1 v
@[simp] theorem two_length (v : Nat) : (two v).length = 2 := bytesOf_length 2 v
@[simp] theorem four_length (v : Nat) : (four v).length = 4 := bytesOf_length 4 v
@[simp] theorem flag_length (b : Bool) : (flag b).length = 1 := one_length _

theorem packPairs_length : ∀ l : List Nat, (packPairs l).length = (l.length + 1) / 2
  | [] => rfl
  | [_] => by simp [packPairs]
  | _ :: _ :: rest => by
    simp only [packPairs, List.length_append, one_length, packPairs_length rest, List.length_cons]
    omega

theorem statusBytes_length (s : State) : (statusBytes s).length = 18 := by
  simp [statusBytes, packPairs_length]

theorem sampleBytes_length (s : State) : (sampleBytes s).length = 8 := by
  unfold sampleBytes
  split <;> simp

theorem referenceBytes_length (s : State) : (referenceBytes s).length = 7 := by
  unfold referenceBytes
  split <;> simp

theorem queueBytes_length (h : s.drive.queue.length ≤ 16) : (queueBytes s).length = 32 := by
  have used : (s.drive.queue.flatMap fun e => two (2048 * stationNumber e.station + e.target)).length =
      2 * s.drive.queue.length := by
    simp [List.length_flatMap, mul_comm]
  simp only [queueBytes, List.length_append, List.length_replicate, used]
  omega

theorem statusContents_length (h : s.drive.queue.length ≤ 16) : (0x00 :: statusContents s : List Byte).length = 86 := by
  rw [List.length_cons]
  unfold statusContents
  simp only [List.length_append, statusBytes_length, sampleBytes_length, referenceBytes_length, queueBytes_length h]
  simp only [one_length]
  simp only [two_length]
  simp only [four_length]

theorem identContents_received (p q : Port) (s : State) : identContents q (received p s) = identContents q s := by
  cases p <;> rfl

theorem statusContents_received (p : Port) (s : State) : statusContents (received p s) = statusContents s := by
  cases p <;> rfl

theorem bankContents_received (p : Port) (s : State) : bankContents (received p s) = bankContents s := by
  cases p <;> rfl

theorem sweepContents_received (p : Port) (s : State) : sweepContents (received p s) = sweepContents s := by
  cases p <;> rfl

theorem tripContents_received (p : Port) (s : State) : tripContents (received p s) = tripContents s := by
  cases p <;> rfl

theorem integrityContents_received (p : Port) (s : State) : integrityContents (received p s) = integrityContents s := by
  cases p <;> rfl

theorem exec_query {c : Instr} {kind : Byte} {reads : List Nat} {contents : Port → State → List Byte}
    (hc : requestOf c = some (queryRow kind reads contents, r)) (h : Taken r s) (hb : r.body = [])
    (same : contents r.port (received r.port s) = contents r.port s) :
    exec c s = .next (replied r.port kind (0x00 :: contents r.port s) none s) := by
  rw [exec_of_request hc]
  exact performRequest_query h hb same

theorem identContents_eq (p : Port) (s : State) :
    identContents p s = [0x4F, 0x04, 0x16, BitVec.ofNat 8 s.address, BitVec.ofNat 8 (Port.code p)] := by
  simp only [identContents, one_eq]
  rfl

/-- Settles O22. -/
theorem plainQueriesAnswered : Obligations.PlainQueriesAnswered := by
  unfold Obligations.PlainQueriesAnswered
  intro r s h hb
  rw [← identContents_eq]
  exact ⟨exec_query (contents := identContents) rfl h hb (identContents_received ..),
    exec_query (contents := fun _ => statusContents) rfl h hb (statusContents_received ..),
    statusContents_length,
    exec_query (contents := fun _ => bankContents) rfl h hb (bankContents_received ..),
    exec_query (contents := fun _ => sweepContents) rfl h hb (sweepContents_received ..),
    exec_query (contents := fun _ => tripContents) rfl h hb (tripContents_received ..),
    exec_query (contents := fun _ => integrityContents) rfl h hb (integrityContents_received ..)⟩

theorem configBytes_length (c : StationConfig) : (configBytes c).length = 15 := by simp [configBytes]

theorem qualityBytes_length (q : Option QualityResult) : (qualityBytes q).length = 14 := by
  unfold qualityBytes
  split <;> simp

theorem flowBytes_length (f : FlowRecord) : (flowBytes f).length = 9 := by simp [flowBytes]

theorem stationContents_length (i : StationIx) (s : State) : (0x00 :: stationContents i s : List Byte).length = 58 := by
  simp only [stationContents, List.length_cons, List.length_append, one_length, two_length, four_length,
    configBytes_length, qualityBytes_length, flowBytes_length]

/-- Settles O23. -/
theorem stationQueryAnswered : Obligations.StationQueryAnswered := by
  unfold Obligations.StationQueryAnswered
  intro r s n h hb
  have row : exec (.stationQuery r) s = performRequest stationRow r s := rfl
  refine ⟨fun i hn => ⟨?_, stationContents_length i s⟩, fun hn => ?_⟩
  · have named : bodyStation [n] = some i := stationOf_number hn
    have same : stationContents i (received r.port s) = stationContents i s := by cases r.port <;> rfl
    rw [row, performRequest_unchanged h (.inl rfl) (by rw [hb]; rfl) (c := .ok)
      (contents := stationContents i (received r.port s)) (k := none) (by simp only [stationRow, hb, named]; rfl), same]
    rfl
  · have named : bodyStation [n] = none := stationOf_other hn
    rw [row, performRequest_unchanged h (.inl rfl) (by rw [hb]; rfl) (c := .badValue) (contents := []) (k := none)
      (by simp only [stationRow, hb, named]; rfl)]
    rfl

end Queries

end Sys2Proof.Proofs
end

section
/-! What a move request and the grants behind it leave of every station (R124 to R130), and the station commands that end in
one: START, STOP, ISOLATE, CLEAR FAULT, PIN and UNPIN. -/

namespace Sys2Proof.Proofs

open Sys2Proof Sys2Proof.Machine Sys2Proof.Laws

/-! ### A working part that the drive has moved -/

/-- The drive's reports and requests write the last move done, the settle expiry and the fresh flag, which they can only
clear. -/
structure Reported (a b : StationWork) : Prop where
  same : b = { a with lastMoveDone := b.lastMoveDone, settleExpiry := b.settleExpiry, fresh := b.fresh }
  fresh : b.fresh = a.fresh ∨ b.fresh = false

/-- A grant that finds the position absent stalls a station in STANDBY, PRODUCING or QUARANTINED (R130, R137, R26). -/
structure Stalled (a b : StationWork) : Prop where
  taken : a.state = .standby ∨ a.state.active = true
  same : b = { a with
    state := .faulted .valveStall, target := 0, recoveryRun := 0, restartMark := false
    lastMoveDone := b.lastMoveDone, settleExpiry := b.settleExpiry, fresh := b.fresh }
  fresh : b.fresh = false

section Works

variable {a b c : StationWork}

theorem Reported.refl (a : StationWork) : Reported a a := ⟨rfl, .inl rfl⟩

theorem Reported.trans (h : Reported a b) (k : Reported b c) : Reported a c :=
  ⟨by rw [k.same, h.same], k.fresh.elim (fun e => h.fresh.imp e.trans e.trans) .inr⟩

theorem Reported.state (h : Reported a b) : b.state = a.state := by rw [h.same]
theorem Reported.target (h : Reported a b) : b.target = a.target := by rw [h.same]
theorem Reported.position (h : Reported a b) : b.position = a.position := by rw [h.same]
theorem Reported.quarantineCount (h : Reported a b) : b.quarantineCount = a.quarantineCount := by rw [h.same]
theorem Reported.recoveryRun (h : Reported a b) : b.recoveryRun = a.recoveryRun := by rw [h.same]
theorem Reported.restartMark (h : Reported a b) : b.restartMark = a.restartMark := by rw [h.same]
theorem Reported.damaged (h : Reported a b) : b.damaged = a.damaged := by rw [h.same]
theorem Reported.quality (h : Reported a b) : b.quality = a.quality := by rw [h.same]
theorem Reported.flow (h : Reported a b) : b.flow = a.flow := by rw [h.same]
theorem Reported.stale (h : Reported a b) (hf : a.fresh = false) : b.fresh = false := h.fresh.elim (·.trans hf) id

theorem Stalled.state (h : Stalled a b) : b.state = .faulted .valveStall := by rw [h.same]
theorem Stalled.target (h : Stalled a b) : b.target = 0 := by rw [h.same]
theorem Stalled.position (h : Stalled a b) : b.position = a.position := by rw [h.same]
theorem Stalled.quarantineCount (h : Stalled a b) : b.quarantineCount = a.quarantineCount := by rw [h.same]
theorem Stalled.recoveryRun (h : Stalled a b) : b.recoveryRun = 0 := by rw [h.same]
theorem Stalled.restartMark (h : Stalled a b) : b.restartMark = false := by rw [h.same]
theorem Stalled.damaged (h : Stalled a b) : b.damaged = a.damaged := by rw [h.same]
theorem Stalled.quality (h : Stalled a b) : b.quality = a.quality := by rw [h.same]
theorem Stalled.flow (h : Stalled a b) : b.flow = a.flow := by rw [h.same]

/-- A stalled station is not stalled again. -/
theorem Stalled.thenReported (h : Stalled a b) (k : Reported b c) : Stalled a c :=
  ⟨h.taken, by rw [k.same, h.same], k.stale h.fresh⟩

theorem Reported.thenStalled (h : Reported a b) (k : Stalled b c) : Stalled a c :=
  ⟨h.state ▸ k.taken, by rw [k.same, h.same], k.fresh⟩

theorem Stalled.not_again (h : Stalled a b) (k : Stalled b c) : False := by
  have taken := k.taken
  rw [h.state] at taken
  simp [StationState.active] at taken

end Works

/-! ### What the drive's work leaves -/

/-- What a move request and its grants make of the state: a change of the table in which each station's working part has been
reported on, or stalled where its position is absent outside IDLE. Where no station is active the sampler is told nothing. -/
structure Driven (s t : State) : Prop where
  table : TableChange s t
  work : ∀ j, Reported (s.work j) (t.work j) ∨ ¬ Drivable j s ∧ Stalled (s.work j) (t.work j)
  sampler : SamplerStep s t.sampler
  asleep : (∀ j, (s.work j).state.active = false) → t.sampler = s.sampler

/-- What is active behind the drive's work was active before it, so that the sampler's steps compose. -/
theorem SamplerStep.afterTable {s t : State} {k : Sampler} (h : SamplerStep s t.sampler) (k' : SamplerStep t k)
    (ha : ∀ j, (t.work j).state.active = true → (s.work j).state.active = true) : SamplerStep s k where
  phased hp := ⟨(k'.phased (h.phased hp).1).1, (k'.phased (h.phased hp).1).2.trans (h.phased hp).2⟩
  counts hc := k'.counts (h.counts hc)
  demand j hj := (k'.demand j hj).elim (h.demand j) fun e => .inr (ha j e)
  flight j hj := (k'.flight j hj).elim (h.flight j) fun e => .inr (ha j e)
  claim17 j hj := (k'.claim17 j hj).elim (h.claim17 j) fun e => .inr (ha j e)
  claim18 j hj := (k'.claim18 j hj).elim (h.claim18 j) fun e => .inr (ha j e)
  fault := k'.fault.trans h.fault

namespace Driven

variable {s t u : State} {i j : StationIx}

theorem refl (s : State) : Driven s s := ⟨.refl s, fun _ => .inl (.refl _), .refl s, fun _ => rfl⟩

theorem state (h : Driven s t) (j : StationIx) :
    (t.work j).state = (s.work j).state ∨ (t.work j).state = .faulted .valveStall :=
  (h.work j).imp Reported.state fun k => k.2.state

theorem active (h : Driven s t) (j : StationIx) (ha : (t.work j).state.active = true) :
    (s.work j).state.active = true := by
  rcases h.state j with e | e <;> rw [e] at ha
  · exact ha
  · simp [StationState.active] at ha

theorem position (h : Driven s t) (j : StationIx) : (t.work j).position = (s.work j).position :=
  (h.work j).elim Reported.position fun k => k.2.position

theorem drivable (h : Driven s t) (j : StationIx) : Drivable j t ↔ Drivable j s := by
  rw [Drivable, Drivable, h.table.bank, h.position]

theorem trans (h : Driven s t) (k : Driven t u) : Driven s u where
  table := h.table.trans k.table
  work j := by
    rcases h.work j with a | ⟨absent, a⟩
    · rcases k.work j with b | ⟨absent, b⟩
      · exact .inl (a.trans b)
      · exact .inr ⟨fun e => absent ((h.drivable j).2 e), a.thenStalled b⟩
    · rcases k.work j with b | ⟨-, b⟩
      · exact .inr ⟨absent, a.thenReported b⟩
      · exact (a.not_again b).elim
  sampler := h.sampler.afterTable k.sampler h.active
  asleep ha := (k.asleep fun j => by
    rw [← Bool.not_eq_true]
    exact fun e => absurd (h.active j e) (by simp [ha j])).trans (h.asleep ha)

theorem ite {c : Prop} [Decidable c] (h : c → Driven s t) (k : ¬ c → Driven s u) : Driven s (if c then t else u) := by
  split
  · exact h ‹_›
  · exact k ‹_›

theorem foldl {α : Type} {f : State → α → State} (h : ∀ s a, Driven s (f s a)) (l : List α) (s : State) :
    Driven s (l.foldl f s) := by
  induction l generalizing s with
  | nil => exact refl s
  | cons a rest ih => exact (h s a).trans (ih (f s a))

/-- Where no grant finds its position absent a station has been reported on alone. -/
theorem reported (h : Driven s t) (hj : Drivable j s) : Reported (s.work j) (t.work j) :=
  (h.work j).resolve_right fun k => k.1 hj

/-- A change that no working part is in. -/
theorem of_drive (d : Drive) : Driven s { s with drive := d } :=
  ⟨withDrive_table s d, fun _ => .inl (.refl _), .refl s, fun _ => rfl⟩

theorem of_raise (k : EventKind) (n : Nat) (e : Option Edge) (v : Option Nat) : Driven s (raise k n e v s) :=
  ⟨raise_table s k n e v, fun _ => .inl (.refl _), .refl s, fun _ => rfl⟩

theorem of_sampler (h : SamplerOnly s t) (k : SamplerStep s t.sampler) (ha : (s.work i).state.active = true) : Driven s t :=
  ⟨.ofSampler h, fun j => .inl (by rw [show t = { s with sampler := t.sampler } from h]; exact .refl _), k,
    fun asleep => absurd ha (by simp [asleep i])⟩

theorem of_setWork {w : StationWork} (h : Reported (s.work i) w) : Driven s (s.setWork i w) where
  table := setWork_table s i w
  work j := by
    by_cases hj : j = i
    · subst hj
      rw [setWork_work_same]
      exact .inl h
    · rw [setWork_work_other _ _ hj]
      exact .inl (.refl _)
  sampler := .refl s
  asleep _ := rfl

end Driven

/-- Such a change in which no station is stalled. -/
structure Steered (s t : State) : Prop where
  driven : Driven s t
  reported : ∀ j, Reported (s.work j) (t.work j)

namespace Steered

variable {s t u : State} {i : StationIx}

theorem refl (s : State) : Steered s s := ⟨.refl s, fun _ => .refl _⟩

theorem trans (h : Steered s t) (k : Steered t u) : Steered s u :=
  ⟨h.driven.trans k.driven, fun j => (h.reported j).trans (k.reported j)⟩

theorem ite {c : Prop} [Decidable c] (h : c → Steered s t) (k : ¬ c → Steered s u) : Steered s (if c then t else u) := by
  split
  · exact h ‹_›
  · exact k ‹_›

theorem foldl {α : Type} {f : State → α → State} (h : ∀ s a, Steered s (f s a)) (l : List α) (s : State) :
    Steered s (l.foldl f s) := by
  induction l generalizing s with
  | nil => exact refl s
  | cons a rest ih => exact (h s a).trans (ih (f s a))

theorem of_drive (d : Drive) : Steered s { s with drive := d } := ⟨.of_drive d, fun _ => .refl _⟩

theorem of_raise (k : EventKind) (n : Nat) (e : Option Edge) (v : Option Nat) : Steered s (raise k n e v s) :=
  ⟨.of_raise .., fun _ => .refl _⟩

theorem of_sampler (h : SamplerOnly s t) (k : SamplerStep s t.sampler) (ha : (s.work i).state.active = true) :
    Steered s t :=
  ⟨.of_sampler h k ha, fun j => by rw [show t = { s with sampler := t.sampler } from h]; exact .refl _⟩

theorem of_setWork {w : StationWork} (h : Reported (s.work i) w) : Steered s (s.setWork i w) where
  driven := .of_setWork h
  reported j := by
    by_cases hj : j = i
    · subst hj
      rw [setWork_work_same]
      exact h
    · rw [setWork_work_other _ _ hj]
      exact .refl _

end Steered

section Drive

variable {s t : State} {i j : StationIx}

theorem settleReached_steered (i : StationIx) (s : State) : Steered s (settleReached plain i s) := by
  have removed : Steered s (s.setWork i { s.work i with settleExpiry := none }) := .of_setWork ⟨rfl, .inl rfl⟩
  rw [settleReached_plain]
  split
  case isTrue ready =>
    exact removed.trans (.of_sampler (addDemand_samplerOnly ..) (addDemand_step (active_of_sampleable ready))
      (active_of_sampleable ready))
  case isFalse => exact removed

theorem reportCompleted_steered (i : StationIx) (target : Nat) (s : State) : Steered s (reportCompleted plain i target s) := by
  have done : Steered s (s.setWork i (completedWork s i)) := .of_setWork ⟨rfl, .inl rfl⟩
  rw [reportCompleted_plain]
  exact .ite (fun _ => .ite (fun _ => done.trans (settleReached_steered ..)) fun _ => done) fun _ => .refl s

/-- What a station that leaves for an inactive state leaves of the sampler (R35). -/
theorem enterState_sampler {new : StationState} (l : List WorkField) (f : StationWork → StationWork)
    (h : new.active = false) : SamplerStep s (enterState plain i new l f s).sampler := by
  obtain ⟨u, same, entered, works, told⟩ := enterState_sampler_step i new l f s
  rw [told]
  refine SamplerStep.afterTable (t := u) (same ▸ .refl s) (tellSampler_step ..) fun j ha => ?_
  by_cases hj : j = i
  · subst hj
    rw [entered, h] at ha
    simp at ha
  · rwa [← works, enterState_work_other _ _ _ _ _ hj] at ha

/-- An inactive station that becomes FAULTED tells the sampler nothing (R35). -/
theorem enterState_asleep (c : FaultCause) (l : List WorkField) (f : StationWork → StationWork)
    (h : (s.work i).state.active = false) : (enterState plain i (.faulted c) l f s).sampler = s.sampler := by
  rw [enterState_plain]
  simp only [tellSampler, h, Bool.false_eq_true, if_false]
  rfl

/-- A stall at a grant is taken in STANDBY, PRODUCING and QUARANTINED (R25). -/
theorem stall_driven (h : ¬ Drivable i s) : Driven s (haltReport plain i .valveStall s) := by
  rw [haltReport_plain]
  refine .ite (fun taken => ?_) fun _ => .refl s
  refine ⟨haltFault_table s i _, fun j => ?_, ?_, fun asleep => ?_⟩
  · rw [haltFault, withdraw_plain, dropMoves_work]
    by_cases hj : j = i
    · subst hj
      rw [enterState_work_same]
      exact .inr ⟨h, faultTaken_states taken, rfl, rfl⟩
    · rw [enterState_work_other _ _ _ _ _ hj]
      exact .inl (.refl _)
  · rw [haltFault, withdraw_plain, dropMoves_sampler]
    exact enterState_sampler _ _ rfl
  · rw [haltFault, withdraw_plain, dropMoves_sampler]
    exact enterState_asleep _ _ _ (asleep i)

/-- One grant (R130). A position absent is found outside IDLE alone, where grants are made (R127). -/
theorem beginMotion_driven (e : QueuedMove) (h : s.bank.mode ≠ .idle) : Driven s (beginMotion plain e s) := by
  rw [beginMotion_plain]
  split
  case h_1 absent =>
    refine (Driven.of_raise ..).trans (stall_driven ?_)
    rintro (idle | present)
    · exact h idle
    · simp [absent] at present
  case h_2 => exact .ite (fun _ => (reportCompleted_steered ..).driven) fun _ => .ite (fun _ => .of_drive _) fun _ => .of_drive _

theorem grantLoop_driven (fuel : Nat) (s : State) : Driven s (grantLoop plain fuel s) := by
  induction fuel generalizing s with
  | zero => exact .refl s
  | succ fuel ih =>
    rw [grantLoop_plain]
    split
    case h_1 => exact .refl s
    case h_2 e rest _ =>
      refine .ite (fun opened => ?_) fun _ => .refl s
      have running : s.bank.mode ≠ .idle := by
        simp only [grantOpen, Bool.and_eq_true, decide_eq_true_eq] at opened
        exact opened.1.1
      exact ((Driven.of_drive { s.drive with queue := rest }).trans (beginMotion_driven e running)).trans (ih _)

theorem grantTest_driven (s : State) : Driven s (grantTest plain s) := grantLoop_driven ..

theorem completeMotion_steered (i : StationIx) (target : Nat) (s : State) : Steered s (completeMotion plain i target s) :=
  (Steered.of_drive _).trans (reportCompleted_steered i target (dropMotion i s))

theorem retarget_steered (m : Motion) (target : Nat) (s : State) : Steered s (retarget plain m target s) := by
  have moved (x : Motion) : Steered s (setMotion x s) := .of_drive _
  have done : Steered s (completeMotion plain m.station target s) := completeMotion_steered ..
  rw [retarget_plain]
  refine .ite (fun _ => .refl s) fun _ => ?_
  split
  · exact moved _
  · split
    · exact moved _
    · exact .ite (fun _ => done) fun _ => .ite (fun _ => moved _) fun _ => .ite (fun _ => moved _) fun _ => moved _
    · exact .ite (fun _ => done) fun _ => .ite (fun _ => moved _) fun _ => moved _

theorem queueMove_steered (i : StationIx) (target : Nat) (s : State) : Steered s (queueMove plain i target s) :=
  (Steered.of_drive { s.drive with queue := s.drive.queue ++ [⟨i, target⟩] }).trans (.of_setWork ⟨rfl, .inr rfl⟩)

theorem takeMove_steered (i : StationIx) (target : Nat) (s : State) : Steered s (takeMove plain i target s) := by
  rw [takeMove_plain]
  refine .ite (fun _ => .of_drive _) fun _ => ?_
  split
  · exact retarget_steered ..
  · exact .ite (fun _ => reportCompleted_steered ..) fun _ => queueMove_steered ..

theorem moveRequest_driven (i : StationIx) (target : Nat) (s : State) : Driven s (moveRequest plain i target s) :=
  (takeMove_steered i target s).driven.trans (grantTest_driven _)

/-- Behind the target change itself comes a move request, or nothing (R11). -/
theorem applyTarget_driven (i : StationIx) (requested : Nat) (s : State) :
    Driven (aimed i requested s) (applyTarget plain i requested s) := by
  rw [applyTarget_plain]
  unfold aimed
  split
  · exact .refl s
  · exact moveRequest_driven ..

theorem aimed_target (i : StationIx) (requested : Nat) (s : State) :
    ((aimed i requested s).work i).target = clampTarget (s.cfg i) (s.work i).state requested := by
  unfold aimed
  split
  case isTrue same => exact same.symm
  case isFalse => rw [setWork_work_same]

/-- The target change writes the target, and clears the fresh flag and the settle expiry (R11). -/
theorem aimed_work_same (i : StationIx) (requested : Nat) (s : State) : ∃ e f, (f = (s.work i).fresh ∨ f = false) ∧
    (aimed i requested s).work i = { s.work i with
      target := clampTarget (s.cfg i) (s.work i).state requested, settleExpiry := e, fresh := f } := by
  unfold aimed
  split
  case isTrue same => exact ⟨_, _, .inl rfl, by rw [same]⟩
  case isFalse => exact ⟨none, false, .inr rfl, setWork_work_same ..⟩

end Drive

/-! ### In IDLE a move request touches its own station alone (R127) -/

section Idle

variable {s : State} {i j : StationIx}

theorem settleReached_work_other (h : j ≠ i) : (settleReached plain i s).work j = s.work j := by
  have removed (w : StationWork) : (s.setWork i w).work j = s.work j := setWork_work_other _ _ h
  rw [settleReached_plain]
  split
  · rw [addDemand_samplerOnly]
    exact removed _
  · exact removed _

theorem reportCompleted_work_other (target : Nat) (h : j ≠ i) : (reportCompleted plain i target s).work j = s.work j := by
  have removed (w : StationWork) : (s.setWork i w).work j = s.work j := setWork_work_other _ _ h
  rw [reportCompleted_plain]
  split
  · split
    · rw [settleReached_work_other h]
      exact removed _
    · exact removed _
  · rfl

theorem retarget_work_other (m : Motion) (target : Nat) (h : j ≠ m.station) :
    (retarget plain m target s).work j = s.work j := by
  have done : (completeMotion plain m.station target s).work j = s.work j := reportCompleted_work_other target h
  rw [retarget_plain]
  split
  · rfl
  · split
    · rfl
    · split
      · rfl
      · split
        · exact done
        · split
          · rfl
          · split <;> rfl
      · split
        · exact done
        · split <;> rfl

theorem motionOf_station {m : Motion} (h : motionOf s i = some m) : m.station = i := by
  simpa using List.find?_some h

theorem takeMove_work_other (target : Nat) (h : j ≠ i) : (takeMove plain i target s).work j = s.work j := by
  rw [takeMove_plain]
  split
  · rfl
  · split
    case h_1 m hm => exact retarget_work_other m target (motionOf_station hm ▸ h)
    case h_2 =>
      split
      · exact reportCompleted_work_other target h
      · exact setWork_work_other _ _ h

theorem moveRequest_idle (target : Nat) (h : s.bank.mode = .idle) : moveRequest plain i target s = takeMove plain i target s :=
  grantTest_idle ((takeMove_table s i target).bank ▸ h)

theorem moveRequest_idle_other (target : Nat) (h : s.bank.mode = .idle) (hj : j ≠ i) :
    (moveRequest plain i target s).work j = s.work j := by
  rw [moveRequest_idle target h, takeMove_work_other target hj]

theorem applyTarget_idle_other (requested : Nat) (h : s.bank.mode = .idle) (hj : j ≠ i) :
    (applyTarget plain i requested s).work j = s.work j := by
  rw [applyTarget_plain]
  split
  · rfl
  · exact (moveRequest_idle_other _ (by exact h) hj).trans (setWork_work_other _ _ hj)

end Idle

/-! ### A change of state with the target change behind it (R10, R11, R35) -/

section EnterApply

variable {s : State} {i j : StationIx} {new : StationState} {l : List WorkField} {f : StationWork → StationWork}
  {requested : Nat}

/-- The working part of a station that has entered a state and been given a target by the clamp, in front of its move. -/
def Aimed (a : StationWork) (c : StationConfig) (new : StationState) (requested : Nat) (w : StationWork) : Prop :=
  w = { a with
    state := new, target := clampTarget c new requested, settleExpiry := w.settleExpiry, fresh := w.fresh } ∧
    (w.fresh = a.fresh ∨ w.fresh = false)

theorem enterApply_table : TableChange s (applyTarget plain i requested (enterState plain i new l f s)) :=
  (enterState_table ..).trans (applyTarget_table ..)

theorem aimed_position (i j : StationIx) (requested : Nat) (s : State) :
    ((aimed i requested s).work j).position = (s.work j).position := by
  by_cases hj : j = i
  · subst hj
    obtain ⟨e, g, -, h⟩ := aimed_work_same j requested s
    rw [h]
  · rw [aimed_work_other hj]

theorem aimed_bank (i : StationIx) (requested : Nat) (s : State) : (aimed i requested s).bank = s.bank := by
  unfold aimed
  split <;> rfl

theorem aimed_drivable : Drivable j (aimed i requested s) ↔ Drivable j s := by
  rw [Drivable, Drivable, aimed_bank, aimed_position]

theorem enterState_position (h : (f (s.work i)).position = (s.work i).position) :
    ((enterState plain i new l f s).work j).position = (s.work j).position := by
  by_cases hj : j = i
  · subst hj
    rw [enterState_work_same, ← h]
  · rw [enterState_work_other _ _ _ _ _ hj]

theorem enterState_drivable (h : (f (s.work i)).position = (s.work i).position) :
    Drivable j (enterState plain i new l f s) ↔ Drivable j s := by
  rw [Drivable, Drivable, (enterState_table ..).bank, enterState_position h]

/-- The station itself: aimed, and then reported on or stalled. -/
theorem enterApply_own (h : (f (s.work i)).position = (s.work i).position) :
    ∃ w, Aimed (f (s.work i)) (s.cfg i) new requested w ∧
      (Reported w ((applyTarget plain i requested (enterState plain i new l f s)).work i) ∨
        ¬ Drivable i s ∧ Stalled w ((applyTarget plain i requested (enterState plain i new l f s)).work i)) := by
  have driven := (applyTarget_driven i requested (enterState plain i new l f s)).work i
  rw [aimed_drivable, enterState_drivable h] at driven
  refine ⟨_, ?_, driven⟩
  obtain ⟨e, g, hg, hw⟩ := aimed_work_same i requested (enterState plain i new l f s)
  rw [hw, enterState_work_same, enterState_cfg]
  rw [enterState_work_same] at hg
  exact ⟨rfl, hg⟩

/-- In IDLE no other station is touched. -/
theorem enterApply_idle (hm : s.bank.mode = .idle) (hj : j ≠ i) :
    (applyTarget plain i requested (enterState plain i new l f s)).work j = s.work j := by
  rw [applyTarget_idle_other _ ((enterState_table s i new l f).bank ▸ hm) hj, enterState_work_other _ _ _ _ _ hj]

/-- A station that has become inactive and been given up by the sampler stays so behind its move. -/
theorem enterApply_given (hn : new.active = false)
    (hg : Unclaimed i (enterState plain i new l f s).sampler ∧
      sampledStation (enterState plain i new l f s).sampler ≠ some i) :
    Unclaimed i (applyTarget plain i requested (enterState plain i new l f s)).sampler ∧
      sampledStation (applyTarget plain i requested (enterState plain i new l f s)).sampler ≠ some i := by
  have step := (applyTarget_driven i requested (enterState plain i new l f s)).sampler
  have inactive : ((aimed i requested (enterState plain i new l f s)).work i).state.active = false := by
    rw [aimed_state, enterState_work_same]
    exact hn
  rw [← aimed_sampler i requested] at hg
  exact ⟨step.unclaimed inactive hg.1, step.unsampled inactive hg.2⟩

theorem enterApply_unlisted (hn : new.active = false) (hg : i ∉ (enterState plain i new l f s).sampler.demand) :
    i ∉ (applyTarget plain i requested (enterState plain i new l f s)).sampler.demand := by
  have step := (applyTarget_driven i requested (enterState plain i new l f s)).sampler
  refine step.unlisted ?_ (by rwa [aimed_sampler])
  rw [aimed_state, enterState_work_same]
  exact hn

end EnterApply

/-! ### START, STOP and ISOLATE (R19 to R21) -/

section Commands

variable {r : Request} {s t : State} {i : StationIx} {n : Byte}

theorem onlyTable_answered (h : TableChange (received .control s) t) : OnlyTable s (answeredOk t) :=
  onlyTable_trans (onlyTable_received s) (onlyTable_trans (onlyTable_of_tableChange h) (onlyTable_answeredOk t))

/-- A command of STATION COMMAND whose work is a change of the table. -/
theorem exec_command_table {operation : Nat} {reads : StationIx → State → List Nat}
    {act : Access → StationIx → State → Answer} {c : Instr} {o : Byte}
    (hc : requestOf c = some (commandRow operation reads act, r)) (h : TakenControl r s) (hb : r.body = [n, o])
    (hn : n.toNat = i.val + 1) (ho : o.toNat = operation) (ha : act plain i (received .control s) = accept t)
    (ht : TableChange (received .control s) t) : exec c s = .next (answeredOk t) :=
  exec_command_accepted hc h hb hn ho ha ((PartChange.ofTable ht).clean (received_undisturbed .control h.1.1).2)

/-- A station command that its owner refuses by the state it finds. -/
theorem exec_command_refusing {operation : Nat} {reads : StationIx → State → List Nat}
    {act : Access → StationIx → State → Answer} {c : Instr} {o : Byte} {st : Status}
    (hc : requestOf c = some (commandRow operation reads act, r)) (h : TakenControl r s) (hb : r.body = [n, o])
    (hn : n.toNat = i.val + 1) (ho : o.toNat = operation)
    (ha : act plain i (received .control s) = refuse st (received .control s)) :
    exec c s = .next (replied .control 0x11 [st.code] none s) :=
  exec_command_refused hc h hb ((commandRow_act_station _ _ _ hn ho).trans ha)

theorem startStation_eq (i : StationIx) (s : State) : startStation plain i s =
    applyTarget plain i (s.cfg i).startOpening (enterState plain i .producing [.quarantineCount, .recoveryRun, .restartMark]
      (fun w => { w with quarantineCount := 0, recoveryRun := 0, restartMark := false }) s) := rfl

theorem startStation_table (i : StationIx) (s : State) : TableChange s (startStation plain i s) := by
  rw [startStation_eq]
  exact enterApply_table

/-- What START leaves of its station (R19). -/
theorem startStation_own (i : StationIx) (s : State) :
    StandsAs i .producing s (startStation plain i s) ∧
      (Drivable i s → ((startStation plain i s).work i).target = clampTarget (s.cfg i) .producing (s.cfg i).startOpening) ∧
      ((startStation plain i s).work i).quarantineCount = 0 ∧ ((startStation plain i s).work i).recoveryRun = 0 ∧
      ((startStation plain i s).work i).restartMark = false := by
  rw [startStation_eq]
  obtain ⟨w, ⟨hw, -⟩, own⟩ := enterApply_own (s := s) (i := i) (new := .producing)
    (l := [.quarantineCount, .recoveryRun, .restartMark]) (requested := (s.cfg i).startOpening)
    (f := fun w => { w with quarantineCount := 0, recoveryRun := 0, restartMark := false }) rfl
  rcases own with k | ⟨absent, k⟩
  · refine ⟨.inl ?_, fun _ => ?_, ?_, ?_, ?_⟩
    · rw [k.state, hw]
    · rw [k.target, hw]
    · rw [k.quarantineCount, hw]
    · rw [k.recoveryRun, hw]
    · rw [k.restartMark, hw]
  · exact ⟨.inr ⟨absent, k.state⟩, fun present => absurd present absent, by rw [k.quarantineCount, hw], k.recoveryRun,
      k.restartMark⟩

/-- Settles O25: START is a change of state with the target change and its move behind it. -/
theorem startProduces : Obligations.StartProduces := by
  unfold Obligations.StartProduces
  refine ⟨refusesOtherNumbers_of_row fun _ => rfl, fun r s i n h hb hn => ⟨fun hs hm => ?started, fun hm => ?tripped,
    fun hm hs => ?other⟩⟩
  case started =>
    have table := startStation_table i (received .control s)
    obtain ⟨stands, target, count, run, mark⟩ := startStation_own i (received .control s)
    refine ⟨_, exec_command_table (c := .start r) rfl h hb hn rfl ((if_neg hm).trans (if_pos hs)) table,
      answeredOk_answered _, onlyTable_answered table, stands, target, count, run, mark, table.cfg, fun idle j hj => ?_⟩
    rw [answeredOk_work, startStation_eq]
    exact enterApply_idle (s := received .control s) idle hj
  case tripped =>
    exact exec_command_refusing (c := .start r) (st := .wrongMode) rfl h hb hn rfl (if_pos hm)
  case other =>
    exact exec_command_refusing (c := .start r) (st := .wrongState) rfl h hb hn rfl ((if_neg hm).trans (if_neg hs))

/-- Settles O26: STOP gives up the sample and the claim with the state, and its move brings nothing back. -/
theorem stationStopStandsBy : Obligations.StationStopStandsBy := by
  unfold Obligations.StationStopStandsBy
  refine ⟨refusesOtherNumbers_of_row fun _ => rfl, fun r s i n h hb hn => ⟨fun hs => ?stopped, fun hs => ?other⟩⟩
  case stopped =>
    obtain ⟨w, ⟨hw, -⟩, own⟩ := enterApply_own (s := received .control s) (i := i) (new := .standby) (l := [.recoveryRun])
      (f := fun w => { w with recoveryRun := 0 }) (requested := 0) rfl
    obtain ⟨unclaimed, unsampled⟩ := enterApply_given (requested := 0) rfl
      (enterState_left (s := received .control s) (new := .standby) [.recoveryRun] (fun w => { w with recoveryRun := 0 })
        (by exact hs) rfl)
    have table : TableChange (received .control s) (stopStation plain i (received .control s)) := enterApply_table
    refine ⟨_, exec_command_table (c := .stationStop r) rfl h hb hn rfl (if_pos hs) table,
      answeredOk_answered _, onlyTable_answered table, ?_, ?_, ?_, ?_, unsampled, unclaimed.1, unclaimed.2, table.cfg,
      fun idle j hj => enterApply_idle (s := received .control s) idle hj⟩
    · exact own.imp (fun k => by rw [answeredOk_work, stopStation, k.state, hw]) fun ⟨absent, k⟩ => ⟨absent, k.state⟩
    · exact own.elim (fun k => by rw [answeredOk_work, stopStation, k.target, hw]; rfl) fun ⟨_, k⟩ => k.target
    · exact own.elim (fun k => by rw [answeredOk_work, stopStation, k.recoveryRun, hw]) fun ⟨_, k⟩ => k.recoveryRun
    · exact own.elim (fun k => by rw [answeredOk_work, stopStation, k.quarantineCount, hw]; rfl)
        fun ⟨_, k⟩ => by rw [answeredOk_work, stopStation, k.quarantineCount, hw]; rfl
  case other =>
    exact exec_command_refusing (c := .stationStop r) (st := .wrongState) rfl h hb hn rfl (if_neg (by simpa using hs))

end Commands

end Sys2Proof.Proofs
end

section
/-! What the drive's work at one station leaves of another: its working part, its motion and its entries in the queue. -/

namespace Sys2Proof.Proofs

open Sys2Proof Sys2Proof.Machine Sys2Proof.Laws

/-- The entries a station has in the motion queue. -/
def entriesFor (s : State) (i : StationIx) : List QueuedMove := s.drive.queue.filter fun e => e.station = i

/-- A station as another one's work leaves it. -/
structure Untouched (i : StationIx) (s t : State) : Prop where
  work : t.work i = s.work i
  motion : motionOf t i = motionOf s i
  entries : entriesFor t i = entriesFor s i

namespace Untouched

variable {i j : StationIx} {s t u : State}

theorem refl (i : StationIx) (s : State) : Untouched i s s := ⟨rfl, rfl, rfl⟩

theorem trans (h : Untouched i s t) (k : Untouched i t u) : Untouched i s u :=
  ⟨k.work.trans h.work, k.motion.trans h.motion, k.entries.trans h.entries⟩

theorem ite {c : Prop} [Decidable c] (h : c → Untouched i s t) (k : ¬ c → Untouched i s u) :
    Untouched i s (if c then t else u) := by
  split
  · exact h ‹_›
  · exact k ‹_›

/-- A change that the drive is not in. -/
theorem of_table (hw : t.work i = s.work i) (hd : t.drive = s.drive) : Untouched i s t :=
  ⟨hw, by rw [motionOf, motionOf, hd], by rw [entriesFor, entriesFor, hd]⟩

end Untouched

section Lists

variable {i j : StationIx} {s : State}

theorem queued_iff_entries : queued s i = true ↔ entriesFor s i ≠ [] := by
  simp [queued, entriesFor, List.filter_eq_nil_iff]

theorem not_queued_iff_entries : queued s i = false ↔ entriesFor s i = [] := by
  rw [← Bool.not_eq_true, queued_iff_entries, not_ne_iff]

theorem find_filter_other (l : List Motion) (h : i ≠ j) :
    (l.filter fun m => m.station ≠ j).find? (fun m => m.station = i) = l.find? fun m => m.station = i := by
  rw [List.find?_filter]
  refine congrArg (fun p => l.find? p) (funext fun m => ?_)
  by_cases hm : m.station = i <;> simp [hm, h]

theorem find_map_other (l : List Motion) (x : Motion) (h : i ≠ x.station) :
    (l.map fun m => if m.station = x.station then x else m).find? (fun m => m.station = i) =
      l.find? fun m => m.station = i := by
  induction l with
  | nil => rfl
  | cons m rest ih =>
    simp only [List.map_cons, List.find?_cons]
    by_cases hm : m.station = x.station
    · have other : x.station ≠ i := h.symm
      simp [hm, other, ih]
    · simp [hm, ih]

end Lists

section Elsewhere

variable {i j : StationIx} {s : State} (h : i ≠ j)
include h

theorem setWork_untouched (w : StationWork) (s : State) : Untouched i s (s.setWork j w) :=
  .of_table (setWork_work_other _ _ h) rfl

theorem reportCompleted_untouched (target : Nat) (s : State) : Untouched i s (reportCompleted plain j target s) :=
  .of_table (reportCompleted_work_other target h) (reportCompleted_drive j target s)

theorem enterState_untouched (new : StationState) (l : List WorkField) (f : StationWork → StationWork) (s : State) :
    Untouched i s (enterState plain j new l f s) :=
  .of_table (enterState_work_other _ _ _ _ _ h) (enterState_drive ..)

theorem dropMotion_untouched (s : State) : Untouched i s (dropMotion j s) := ⟨rfl, find_filter_other _ h, rfl⟩

theorem dropMoves_untouched (s : State) : Untouched i s (dropMoves j s) := by
  refine ⟨rfl, find_filter_other _ h, ?_⟩
  unfold entriesFor dropMoves
  rw [List.filter_filter]
  refine List.filter_congr fun e _ => ?_
  by_cases he : e.station = i <;> simp [he, h]

theorem replaceQueued_untouched (target : Nat) (s : State) : Untouched i s (replaceQueued j target s) := by
  refine ⟨rfl, rfl, ?_⟩
  unfold entriesFor replaceQueued
  dsimp only
  induction s.drive.queue with
  | nil => rfl
  | cons e rest ih =>
    simp only [List.map_cons, List.filter_cons]
    by_cases he : e.station = j
    · have other : j ≠ i := h.symm
      simp only [he, if_true, decide_eq_true_eq, other, if_false]
      exact ih
    · simp only [he, if_false]
      rw [ih]

theorem queueMove_untouched (target : Nat) (s : State) : Untouched i s (queueMove plain j target s) := by
  refine ⟨setWork_work_other _ _ h, rfl, ?_⟩
  simp [entriesFor, queueMove, h.symm]

theorem completeMotion_untouched (target : Nat) (s : State) : Untouched i s (completeMotion plain j target s) :=
  (dropMotion_untouched h s).trans (reportCompleted_untouched h target (dropMotion j s))

theorem haltFault_untouched (c : FaultCause) (s : State) : Untouched i s (haltFault plain j c s) :=
  (enterState_untouched h _ _ _ s).trans (dropMoves_untouched h _)

theorem haltReport_untouched (c : FaultCause) (s : State) : Untouched i s (haltReport plain j c s) := by
  rw [haltReport_plain]
  exact .ite (fun _ => haltFault_untouched h c s) fun _ => .refl i s

omit h in
theorem setMotion_untouched {m : Motion} (h : i ≠ m.station) (s : State) : Untouched i s (setMotion m s) :=
  ⟨rfl, find_map_other _ m h, rfl⟩

omit h in
theorem startMotor_untouched {m : Motion} (h : i ≠ m.station) (s : State) : Untouched i s (startMotor m s) := by
  refine ⟨rfl, ?_, rfl⟩
  simp [motionOf, startMotor, h.symm]

omit h in
theorem retarget_untouched {m : Motion} (h : i ≠ m.station) (target : Nat) (s : State) :
    Untouched i s (retarget plain m target s) := by
  have moved {x : Motion} (hx : x.station = m.station) : Untouched i s (setMotion x s) := setMotion_untouched (hx ▸ h) s
  have done : Untouched i s (completeMotion plain m.station target s) := completeMotion_untouched h target s
  rw [retarget_plain]
  refine .ite (fun _ => .refl i s) fun _ => ?_
  split
  · exact moved rfl
  · split
    · exact moved rfl
    · exact .ite (fun _ => done) fun _ => .ite (fun _ => moved rfl) fun _ => .ite (fun _ => moved rfl) fun _ => moved rfl
    · exact .ite (fun _ => done) fun _ => .ite (fun _ => moved rfl) fun _ => moved rfl

theorem takeMove_untouched (target : Nat) (s : State) : Untouched i s (takeMove plain j target s) := by
  rw [takeMove_plain]
  refine .ite (fun _ => replaceQueued_untouched h target s) fun _ => ?_
  split
  case h_1 m hm => exact retarget_untouched (motionOf_station hm ▸ h) target s
  case h_2 =>
    exact .ite (fun _ => reportCompleted_untouched h target s) fun _ => queueMove_untouched h target s

theorem beginMotion_untouched {e : QueuedMove} (he : e.station = j) (s : State) : Untouched i s (beginMotion plain e s) := by
  subst he
  rw [beginMotion_plain]
  split
  · exact .trans (.of_table (raise_work ..) rfl) (haltReport_untouched h ..)
  · exact .ite (fun _ => reportCompleted_untouched h _ s) fun _ =>
      .ite (fun _ => startMotor_untouched h s) fun _ => startMotor_untouched h s

end Elsewhere

section Grants

variable {i j : StationIx} {s : State}

/-- The head of the queue, another station's entry, leaves it. -/
theorem popQueue_untouched {e : QueuedMove} {rest : List QueuedMove} (h : i ≠ e.station) (hq : s.drive.queue = e :: rest) :
    Untouched i s { s with drive := { s.drive with queue := rest } } := by
  refine ⟨rfl, rfl, ?_⟩
  simp [entriesFor, hq, h.symm]

/-- A station with no entry is granted nothing. -/
theorem grantLoop_untouched (fuel : Nat) (h : queued s i = false) : Untouched i s (grantLoop plain fuel s) := by
  induction fuel generalizing s with
  | zero => exact .refl i s
  | succ fuel ih =>
    rw [grantLoop_plain]
    split
    case h_1 => exact .refl i s
    case h_2 e rest hq =>
      refine .ite (fun _ => ?_) fun _ => .refl i s
      have other : i ≠ e.station := by
        rintro rfl
        simp [queued, hq] at h
      have begun := (popQueue_untouched other hq).trans (beginMotion_untouched other rfl _)
      refine begun.trans (ih ?_)
      rw [not_queued_iff_entries, begun.entries, ← not_queued_iff_entries]
      exact h

theorem grantTest_untouched (h : queued s i = false) : Untouched i s (grantTest plain s) := grantLoop_untouched _ h

theorem Untouched.queued {t : State} (h : Untouched i s t) : queued t i = queued s i := by
  rw [Bool.eq_iff_iff, queued_iff_entries, queued_iff_entries, h.entries]

theorem moveRequest_untouched (h : i ≠ j) (target : Nat) (hq : queued s i = false) :
    Untouched i s (moveRequest plain j target s) := by
  have taken := takeMove_untouched h target s
  exact taken.trans (grantTest_untouched (taken.queued.trans hq))

theorem applyTarget_untouched (h : i ≠ j) (requested : Nat) (hq : queued s i = false) :
    Untouched i s (applyTarget plain j requested s) := by
  rw [applyTarget_plain]
  refine .ite (fun _ => .refl i s) fun _ => ?_
  have set := setWork_untouched h { s.work j with
    target := clampTarget (s.cfg j) (s.work j).state requested, fresh := false, settleExpiry := none } s
  exact set.trans (moveRequest_untouched h _ (set.queued.trans hq))

end Grants

end Sys2Proof.Proofs
end

section
/-! ISOLATE, CLEAR FAULT, PIN and UNPIN (R17, R21, R23). -/

namespace Sys2Proof.Proofs

open Sys2Proof Sys2Proof.Machine Sys2Proof.Laws

section Isolate

variable {s : State} {i j : StationIx}

/-- A working part that is given up at target 0. -/
structure TakenOut (a b : StationWork) : Prop where
  state : b.state = .isolated
  target : b.target = 0
  run : b.recoveryRun = 0
  mark : b.restartMark = false
  count : b.quarantineCount = a.quarantineCount

/-- An ISOLATED station is not stalled at a grant (R25). -/
theorem takenOut_driven {a w b : StationWork} {P : Prop} (h : TakenOut a w) (k : Reported w b ∨ P ∧ Stalled w b) :
    TakenOut a b := by
  rcases k with k | ⟨-, k⟩
  · exact ⟨k.state.trans h.state, k.target.trans h.target, k.recoveryRun.trans h.run, k.restartMark.trans h.mark,
      k.quarantineCount.trans h.count⟩
  · have taken := k.taken
    rw [h.state] at taken
    simp [StationState.active] at taken

theorem isolateStation_table (i : StationIx) (s : State) : TableChange s (isolateStation plain i s) := by
  refine TableChange.trans ?_ (applyTarget_table _ i 0)
  exact .ite (fun _ => setWork_table ..) fun _ => enterState_table ..

theorem isolateStation_again (h : (s.work i).state = .isolated) :
    isolateStation plain i s = applyTarget plain i 0 (s.setWork i (s.work i).isolated) := by
  rw [isolateStation, if_pos h]
  rfl

theorem isolateStation_enter (h : (s.work i).state ≠ .isolated) :
    isolateStation plain i s = applyTarget plain i 0 (enterState plain i .isolated faultFields StationWork.isolated s) := by
  rw [isolateStation, if_neg h]

/-- What ISOLATE leaves of its station (R21). -/
theorem isolateStation_own (i : StationIx) (s : State) : TakenOut (s.work i) ((isolateStation plain i s).work i) := by
  by_cases h : (s.work i).state = .isolated
  · rw [isolateStation_again h]
    have driven := (applyTarget_driven i 0 (s.setWork i (s.work i).isolated)).work i
    refine takenOut_driven ?_ driven
    obtain ⟨e, g, -, hw⟩ := aimed_work_same i 0 (s.setWork i (s.work i).isolated)
    rw [setWork_work_same] at hw
    rw [hw]
    exact ⟨h, by rw [show (s.work i).isolated.state = .isolated from h]; rfl, rfl, rfl, rfl⟩
  · rw [isolateStation_enter h]
    obtain ⟨w, ⟨hw, -⟩, own⟩ := enterApply_own (s := s) (i := i) (new := .isolated) (l := faultFields)
      (f := StationWork.isolated) (requested := 0) rfl
    refine takenOut_driven ?_ own
    rw [hw]
    exact ⟨rfl, rfl, rfl, rfl, rfl⟩

theorem isolateStation_given (h : (s.work i).state ≠ .isolated) : i ∉ (isolateStation plain i s).sampler.demand ∧
    Unclaimed i (isolateStation plain i s).sampler ∧ sampledStation (isolateStation plain i s).sampler ≠ some i := by
  rw [isolateStation_enter h]
  obtain ⟨unlisted, given⟩ := enterState_out (s := s) (i := i) (new := .isolated) faultFields StationWork.isolated (.inr rfl)
  exact ⟨enterApply_unlisted rfl unlisted, enterApply_given rfl given⟩

theorem isolateStation_idle (hm : s.bank.mode = .idle) (hj : j ≠ i) : (isolateStation plain i s).work j = s.work j := by
  by_cases h : (s.work i).state = .isolated
  · rw [isolateStation_again h, applyTarget_idle_other 0 (by exact hm) hj, setWork_work_other _ _ hj]
  · rw [isolateStation_enter h]
    exact enterApply_idle hm hj

/-- Settles O27. -/
theorem isolateTakesStationOut : Obligations.IsolateTakesStationOut := by
  unfold Obligations.IsolateTakesStationOut
  refine ⟨refusesOtherNumbers_of_row fun _ => rfl, fun r s i n h hb hn => ⟨fun ha hd => ?isolated, fun hs => ?other⟩⟩
  case isolated =>
    have table := isolateStation_table i (received .control s)
    obtain ⟨state, target, run, mark, count⟩ := isolateStation_own i (received .control s)
    have accepted : isolateCommand plain i (received .control s) = accept (isolateStation plain i (received .control s)) :=
      if_pos (by rw [received_work, ha, hd]; rfl)
    refine ⟨_, exec_command_table (c := .isolate r) rfl h hb hn rfl accepted table, answeredOk_answered _,
      onlyTable_answered table, state, target, run, mark, count, fun hi => ?_, table.cfg,
      fun idle j hj => isolateStation_idle (s := received .control s) idle hj⟩
    obtain ⟨unlisted, unclaimed, unsampled⟩ := isolateStation_given (s := received .control s) hi
    exact ⟨unlisted, unsampled, unclaimed.1, unclaimed.2⟩
  case other =>
    refine exec_command_refusing (c := .isolate r) (st := .wrongState) rfl h hb hn rfl (if_neg ?_)
    rcases hs with hs | hs <;> simp [hs]

end Isolate

/-! ### CLEAR FAULT (R23) -/

section ClearFault

variable {s : State} {i j : StationIx}

/-- A move request to an opening away from which the station stands at rest, while the bank is IDLE, leaves its entry
(R124). -/
theorem moveRequest_entry {target : Nat} (hm : s.bank.mode = .idle) (hn : motionOf s i = none)
    (ha : atOpening s i target = false) : ⟨i, target⟩ ∈ (moveRequest plain i target s).drive.queue := by
  rw [moveRequest_idle target hm, takeMove_plain]
  split
  case isTrue hq =>
    obtain ⟨e, he, hi⟩ := List.any_eq_true.1 hq
    have station : e.station = i := by simpa using hi
    refine List.mem_map.2 ⟨e, he, ?_⟩
    rw [if_pos station, ← station]
  case isFalse =>
    simp only [hn, ha]
    exact List.mem_append_right _ (List.mem_singleton.2 rfl)

/-- A completion at the present target (R30, R31). -/
theorem reportCompleted_own (i : StationIx) (s : State) : (reportCompleted plain i (s.work i).target s).work i =
    { s.work i with
      lastMoveDone := some (bankClock s)
      settleExpiry := if s.settings.bank.settleTime = 0 then none else expiryAfter s s.settings.bank.settleTime } := by
  rw [reportCompleted_plain, if_pos rfl]
  split
  case isTrue =>
    have removed : (settleReached plain i (s.setWork i (completedWork s i))).work i =
        { completedWork s i with settleExpiry := none } := by
      rw [settleReached_plain]
      split
      · rw [addDemand_samplerOnly]
        show (State.setWork _ _ _).work i = _
        rw [setWork_work_same, setWork_work_same]
      · rw [setWork_work_same, setWork_work_same]
    exact removed
  case isFalse => exact setWork_work_same ..

/-- A move request to the present target of a station at rest there is completed at once, and a grant that may follow is
another station's (R124). -/
theorem moveRequest_completed {target : Nat} (hq : queued s i = false) (hn : motionOf s i = none)
    (ha : atOpening s i target = true) (ht : (s.work i).target = target) :
    ((moveRequest plain i target s).work i).lastMoveDone = some (bankClock s) := by
  have taken : takeMove plain i target s = reportCompleted plain i target s := by
    rw [takeMove_plain, hq, hn, ha]
    rfl
  have still : queued (reportCompleted plain i target s) i = false := by
    rw [queued, reportCompleted_drive]
    exact hq
  rw [moveRequest, taken, (grantTest_untouched still).work, ← ht, reportCompleted_own]

theorem clearFault_table (i : StationIx) (s : State) : TableChange s (clearFault plain i s) :=
  (enterState_table ..).trans (moveRequest_table ..)

/-- Settles O29: the move request of CLEAR FAULT is passed behind the change of state. -/
theorem clearFaultStandsBy : Obligations.ClearFaultStandsBy := by
  unfold Obligations.ClearFaultStandsBy
  refine ⟨refusesOtherNumbers_of_row fun _ => rfl, fun r s i n h hb hn => ⟨fun c p hs hd hp => ?cleared,
    fun hs => ?other, fun hs hd hp => ?absent⟩⟩
  case cleared =>
    have table := clearFault_table i (received .control s)
    have accepted : clearFaultCommand plain i (received .control s) = accept (clearFault plain i (received .control s)) := by
      simp [clearFaultCommand, hs, hd, hp, StationState.isFaulted]
    refine ⟨_, exec_command_table (c := .clearFault r) rfl h hb hn rfl accepted table, answeredOk_answered _,
      onlyTable_answered table, ?_⟩
    rw [answeredOk_work, answeredOk_drive]
    unfold clearFault
    generalize hu : enterState plain i .standby [.fresh, .settleExpiry]
      (fun w => { w with fresh := false, settleExpiry := none }) (received .control s) = u
    have own : u.work i = { s.work i with state := .standby, fresh := false, settleExpiry := none } := by
      rw [← hu, enterState_work_same, received_work]
    have same : TableChange (received .control s) u := hu ▸ enterState_table ..
    have drive : u.drive = s.drive := by rw [← hu, enterState_drive]; rfl
    have position : (u.work i).position = some p := by rw [own]; exact hp
    have driven := (moveRequest_driven i 0 u).reported (j := i) (.inr (by rw [position]; rfl))
    have still : motionOf s i = none → motionOf u i = none := fun hm => by rw [motionOf, drive]; exact hm
    refine ⟨?_, ?_, ?_, fun j => ?_, fun far idle hm => ?_, fun near hq hm ht => ?_⟩
    · rw [driven.state, own]
    · rw [driven.target, own]
    · exact driven.stale (by rw [own])
    · rw [answeredOk_cfg, (moveRequest_table u i 0).cfg, same.cfg]
      rfl
    · refine moveRequest_entry (by rw [same.bank]; exact idle) (still hm) ?_
      simpa [atOpening, position, within, Config.deadband] using far
    · have clock : bankClock u = bankClock s := by
        rw [bankClock, same.elapsed]
        rfl
      refine (moveRequest_completed ?_ (still hm) ?_ ?_).trans (congrArg some clock)
      · rw [queued, drive]
        exact hq
      · simpa [atOpening, position, within, Config.deadband] using near
      · rw [own]
        exact ht
  case other =>
    refine exec_command_refusing (c := .clearFault r) (st := .wrongState) rfl h hb hn rfl (if_pos ?_)
    rcases hs with hs | hs <;> simp [hs]
  case absent =>
    refine exec_command_refusing (c := .clearFault r) (st := .conditionPresent) rfl h hb hn rfl ?_
    simp [clearFaultCommand, hs, hd, hp]

end ClearFault

/-! ### PIN and UNPIN (R17) -/

section Pin

variable {r : Request} {s : State} {i : StationIx} {n o : Byte} {c : Instr} {v : Bool}

theorem setPinned_eq (v : Bool) (i : StationIx) (h : Undisturbed s) :
    setPinned plain i v s = applyTarget plain i (s.work i).target (s.setCfg i { s.cfg i with pinned := v }) := by
  have good : Undisturbed (s.setCfg i { s.cfg i with pinned := v }) := h
  rw [setPinned, rewriteWords_clean _ good]

/-- PIN and UNPIN differ in their operation and in the value alone. -/
theorem exec_pin {operation : Nat} (hc : requestOf c = some (commandRow operation pinReads (pinCommand v), r))
    (h : TakenControl r s) (hb : r.body = [n, o]) (hn : n.toNat = i.val + 1) (ho : o.toNat = operation) :
    ((s.work i).state.assigned = true → (s.cfg i).pinned ≠ v →
      ∃ t, exec c s = .next t ∧ Answered 0x11 .ok t ∧ OnlyTable s t ∧ t.cfg i = { s.cfg i with pinned := v } ∧
        (Drivable i s → (t.work i).state = (s.work i).state ∧
          (t.work i).target = clampTarget { s.cfg i with pinned := v } (s.work i).state (s.work i).target) ∧
        (∀ j, j ≠ i → t.cfg j = s.cfg j) ∧ (s.bank.mode = .idle → ∀ j, j ≠ i → t.work j = s.work j)) ∧
    ((s.work i).state.assigned = true → (s.cfg i).pinned = v →
      exec c s = .next (replied .control 0x11 [0x00] none s)) ∧
    ((s.work i).state.assigned = false → exec c s = .next (replied .control 0x11 [0x14] none s)) := by
  have good : Undisturbed (received .control s) := received_undisturbed .control h.1.1
  refine ⟨fun ha hv => ?changed, fun ha hv => ?same, fun ha => ?unassigned⟩
  case changed =>
    have accepted : pinCommand v plain i (received .control s) = accept (setPinned plain i v (received .control s)) :=
      (if_pos ha).trans (if_neg hv)
    rw [setPinned_eq v i good] at accepted
    generalize hu : (received .control s).setCfg i { (received .control s).cfg i with pinned := v } = u at accepted
    have cfg : u.cfg i = { s.cfg i with pinned := v } := by rw [← hu, setCfg_cfg_same]; rfl
    have works : u.work = s.work := by
      funext j
      rw [← hu, setCfg_work]
      rfl
    have drivable : Drivable i u ↔ Drivable i s := by
      rw [Drivable, works, ← hu]
      rfl
    have table := applyTarget_table u i ((received .control s).work i).target
    have only : OnlyTable s u := by
      rw [← hu]
      exact onlyTable_trans (onlyTable_received s) (onlyTable_setCfg _ i _)
    have clean : (applyTarget plain i ((received .control s).work i).target u).memory.Clean :=
      table.memory ▸ hu ▸ good.2
    refine ⟨_, exec_command_accepted hc h hb hn ho accepted clean, answeredOk_answered _,
      onlyTable_trans only (onlyTable_trans (onlyTable_of_tableChange table) (onlyTable_answeredOk _)), ?_,
      fun hd => ?_, fun j hj => ?_, fun idle j hj => ?_⟩
    · rw [answeredOk_cfg, table.cfg, cfg]
    · have driven := (applyTarget_driven i ((received .control s).work i).target u).reported (j := i)
        (aimed_drivable.2 (drivable.2 hd))
      refine ⟨?_, ?_⟩
      · rw [answeredOk_work, driven.state, aimed_state, works]
      · rw [answeredOk_work, driven.target, aimed_target, cfg, works]
        rfl
    · rw [answeredOk_cfg, table.cfg, ← hu, setCfg_cfg_other _ _ hj]
      rfl
    · rw [answeredOk_work, applyTarget_idle_other _ (hu ▸ idle) hj, works]
  case same =>
    have accepted : pinCommand v plain i (received .control s) = accept (received .control s) := (if_pos ha).trans (if_pos hv)
    have row : (commandRow operation pinReads (pinCommand v)).act plain .control [n, o] (received .control s) =
        accept (received .control s) := (commandRow_act_station _ _ _ hn ho).trans accepted
    obtain ⟨taken, hp⟩ := h
    rw [exec_of_request hc, performRequest_unchanged taken (.inr hp) (by rw [hb]; rfl) (c := .ok) (contents := []) (k := none)
      (by rw [hp, hb]; exact row), hp]
    rfl
  case unassigned =>
    exact exec_command_refusing (st := .wrongState) hc h hb hn ho (if_neg (by simpa using ha))

/-- Settles O31. -/
theorem pinAndUnpin : Obligations.PinAndUnpin := by
  unfold Obligations.PinAndUnpin
  refine ⟨refusesOtherNumbers_of_row fun _ => rfl, refusesOtherNumbers_of_row fun _ => rfl,
    fun r s i n op c v h hb hn hc => ?_⟩
  rcases hc with ⟨rfl, rfl, rfl⟩ | ⟨rfl, rfl, rfl⟩
  · exact exec_pin (operation := 7) rfl h hb hn rfl
  · exact exec_pin (operation := 8) rfl h hb hn rfl

end Pin

end Sys2Proof.Proofs
end

section
/-! How a request on the control port is answered (R213), and what an evaluation of the trip function leaves (R168, R169). -/

namespace Sys2Proof.Proofs

open Sys2Proof Sys2Proof.Machine Sys2Proof.Laws

/-! ### Grants in front of which every position is present -/

section Present

variable {s t : State} {i j : StationIx}

/-- Every entry of the queue is for a station whose position is present. -/
def QueuePresent (s : State) : Prop := ∀ e ∈ s.drive.queue, (s.work e.station).position.isSome = true

theorem beginMotion_steered (e : QueuedMove) (h : (s.work e.station).position.isSome = true) :
    Steered s (beginMotion plain e s) ∧ (beginMotion plain e s).drive.queue = s.drive.queue := by
  rw [beginMotion_plain]
  split
  case h_1 absent => simp [absent] at h
  case h_2 =>
    split
    · exact ⟨reportCompleted_steered .., by rw [reportCompleted_drive]⟩
    · split <;> exact ⟨.of_drive _, rfl⟩

theorem Steered.position (h : Steered s t) (j : StationIx) : (t.work j).position = (s.work j).position :=
  (h.reported j).position

/-- Such grants stall no station (R130). -/
theorem grantLoop_steered (fuel : Nat) (h : QueuePresent s) : Steered s (grantLoop plain fuel s) := by
  induction fuel generalizing s with
  | zero => exact .refl s
  | succ fuel ih =>
    rw [grantLoop_plain]
    split
    case h_1 => exact .refl s
    case h_2 e rest hq =>
      refine .ite (fun _ => ?_) fun _ => .refl s
      have popped : Steered s { s with drive := { s.drive with queue := rest } } := .of_drive _
      have present : (s.work e.station).position.isSome = true := h e (by rw [hq]; exact List.mem_cons_self)
      obtain ⟨begun, left⟩ := beginMotion_steered (s := { s with drive := { s.drive with queue := rest } }) e present
      refine (popped.trans begun).trans (ih fun x hx => ?_)
      rw [(popped.trans begun).position]
      rw [left] at hx
      exact h x (by rw [hq]; exact List.mem_cons_of_mem _ hx)

theorem grantTest_steered (h : QueuePresent s) : Steered s (grantTest plain s) := grantLoop_steered _ h

end Present

/-! ### The trip (R28, R143, R170) -/

section Trip

variable {s t : State} {i j : StationIx}

theorem closing_steered (s : State) : Steered s (closing s) :=
  (Steered.of_drive { s.drive with queue := [] }).trans (.foldl (fun t m => retarget_steered m 0 t) _ (flushed s))

/-- The close moves of some stations stand in the queue behind the entries before them. -/
theorem queueMoves_steered (target : Nat) (l : List StationIx) (s : State) :
    Steered s (l.foldl (fun t i => queueMove plain i target t) s) ∧
      (l.foldl (fun t i => queueMove plain i target t) s).drive.queue = s.drive.queue ++ l.map (⟨·, target⟩) := by
  induction l generalizing s with
  | nil => exact ⟨.refl s, by simp⟩
  | cons i rest ih =>
    obtain ⟨moved, queue⟩ := ih (queueMove plain i target s)
    refine ⟨(queueMove_steered i target s).trans moved, queue.trans ?_⟩
    simp [queueMove]

theorem reportCompletions_queue (target : Nat) (l : List StationIx) (s : State) :
    (l.foldl (fun t i => reportCompleted plain i target t) s).drive.queue = s.drive.queue := by
  induction l generalizing s with
  | nil => rfl
  | cons i rest ih => rw [List.foldl_cons, ih, reportCompleted_drive]

/-- A trip order moves only stations whose position is present, so that no grant stalls one (R143). -/
theorem tripOrder_steered (changed : List StationIx) (s : State) : Steered s (tripOrder plain changed s) := by
  rw [tripOrder_plain]
  obtain ⟨moved, queue⟩ := queueMoves_steered 0 (closeOrder (closing s)) (closing s)
  have rested : Steered s ((allStations.filter fun i =>
      tripOrderExamines (closing s) i && positionOr0 (closing s) i ≤ Config.deadband
        && (i ∈ s.drive.queue.map QueuedMove.station || i ∈ changed)).foldl (fun t i => reportCompleted plain i 0 t)
      ((closeOrder (closing s)).foldl (fun t i => queueMove plain i 0 t) (closing s))) :=
    ((closing_steered s).trans moved).trans (.foldl (fun t i => reportCompleted_steered i 0 t) _ _)
  refine rested.trans (grantTest_steered fun e he => ?_)
  rw [reportCompletions_queue, queue, closing_queue, List.nil_append] at he
  obtain ⟨i, hi, rfl⟩ := List.mem_map.1 he
  rw [rested.position, ← (closing_steered s).position]
  have examined := (mem_closeOrder.1 hi).1
  simp only [tripOrderExamines, Bool.and_eq_true] at examined
  exact examined.2

/-- A station as a stand-down leaves it (R28). -/
structure StoodDown (a b : StationWork) : Prop where
  target : b.target = 0
  count : b.quarantineCount = a.quarantineCount
  position : b.position = a.position
  damaged : b.damaged = a.damaged
  quality : b.quality = a.quality
  flow : b.flow = a.flow
  active : a.state.active = true → b.state = .standby ∧ b.restartMark = true
  inactive : a.state.active = false → b.state = a.state ∧ b.restartMark = a.restartMark

theorem closed_more (w : StationWork) : w.closed.quarantineCount = w.quarantineCount ∧ w.closed.position = w.position ∧
    w.closed.restartMark = w.restartMark ∧ w.closed.quality = w.quality ∧ w.closed.flow = w.flow := by
  unfold StationWork.closed
  split <;> exact ⟨rfl, rfl, rfl, rfl, rfl⟩

theorem standDown_stoodDown (i : StationIx) (s : State) : StoodDown (s.work i) ((standDown i plain s).work i) := by
  obtain ⟨count, position, mark, quality, flow⟩ := closed_more (s.work i)
  have target := closed_target (s.work i)
  obtain ⟨state, damaged, -⟩ := closed_fields (s.work i)
  rw [standDown_work_same]
  split
  case isTrue ha => exact ⟨target, count, position, damaged, quality, flow, fun _ => ⟨rfl, rfl⟩, fun hn => absurd ha (by simp [hn])⟩
  case isFalse hn => exact ⟨target, count, position, damaged, quality, flow, fun ha => absurd ha hn, fun _ => ⟨state, mark⟩⟩

/-- Work at each station of a list in turn, that touches no other, is at each station the work there. -/
theorem foldl_work {f : StationIx → State → State} (hf : ∀ i j s, j ≠ i → (f i s).work j = s.work j)
    {Q : StationIx → StationWork → StationWork → Prop} (hq : ∀ i s, Q i (s.work i) ((f i s).work i))
    (l : List StationIx) (hn : l.Nodup) (s : State) :
    (∀ j ∈ l, Q j (s.work j) ((l.foldl (fun t i => f i t) s).work j)) ∧
      ∀ j, j ∉ l → (l.foldl (fun t i => f i t) s).work j = s.work j := by
  induction l generalizing s with
  | nil => exact ⟨fun j hj => absurd hj List.not_mem_nil, fun _ _ => rfl⟩
  | cons i rest ih =>
    obtain ⟨hi, hrest⟩ := List.nodup_cons.1 hn
    obtain ⟨inside, outside⟩ := ih hrest (f i s)
    refine ⟨fun j hj => ?_, fun j hj => ?_⟩
    · rcases List.mem_cons.1 hj with rfl | later
      · rw [List.foldl_cons, outside j hi]
        exact hq j s
      · have other : j ≠ i := fun e => hi (e ▸ later)
        rw [List.foldl_cons, ← hf i j s other]
        exact inside j later
    · obtain ⟨other, notin⟩ := not_or.1 (fun e => hj (List.mem_cons.2 e))
      rw [List.foldl_cons, outside j notin, hf i j s other]

/-- Work at every station in turn that touches no other. -/
theorem forStations_work {f : StationIx → State → State} (hf : ∀ i j s, j ≠ i → (f i s).work j = s.work j)
    {Q : StationIx → StationWork → StationWork → Prop} (hq : ∀ i s, Q i (s.work i) ((f i s).work i)) (s : State)
    (j : StationIx) : Q j (s.work j) ((forStations f s).work j) :=
  (foldl_work hf hq allStations (List.nodup_finRange 16) s).1 j (List.mem_finRange j)

theorem standDownAll_stoodDown (s : State) (j : StationIx) :
    StoodDown (s.work j) ((standDownAll plainly s).work j) := by
  unfold standDownAll
  simp only [plainly_eq]
  exact forStations_work (f := fun i t => standDown i plain t) (Q := fun _ => StoodDown)
    (fun i j s h => standDown_work_other h s) standDown_stoodDown s j

theorem StoodDown.asleep {a b : StationWork} (h : StoodDown a b) : b.state.active = false := by
  by_cases ha : a.state.active = true
  · rw [(h.active ha).1]
    rfl
  · rw [(h.inactive (by simpa using ha)).1]
    simpa using ha

theorem StoodDown.reported {a b c : StationWork} (h : StoodDown a b) (k : Reported b c) : StoodDown a c where
  target := k.target.trans h.target
  count := k.quarantineCount.trans h.count
  position := k.position.trans h.position
  damaged := k.damaged.trans h.damaged
  quality := k.quality.trans h.quality
  flow := k.flow.trans h.flow
  active ha := ⟨k.state.trans (h.active ha).1, k.restartMark.trans (h.active ha).2⟩
  inactive ha := ⟨k.state.trans (h.inactive ha).1, k.restartMark.trans (h.inactive ha).2⟩

theorem startSampler_work (s : State) (j : StationIx) : (startSampler plain s).work j = s.work j := by
  rw [startSampler_samplerOnly]
  rfl

/-- A trip stands every station down, and its moves stall none (R28, R143). -/
theorem trip_stoodDown (o : TripOrigin) (s : State) (j : StationIx) :
    StoodDown (s.work j) ((trip plainly o s).work j) := by
  rw [trip_plainly, startSampler_work]
  exact (standDownAll_stoodDown (tripUnit o s) j).reported ((tripOrder_steered ..).reported j)

/-- Only claims are released in a trip, and a sample in flight goes on (R35, R75, R154). -/
structure ClaimsReleased (k l : Sampler) : Prop where
  only : l = { k with claim17 := l.claim17, claim18 := l.claim18 }
  claim17 : l.claim17 = none ∨ l.claim17 = k.claim17
  claim18 : l.claim18 = none ∨ l.claim18 = k.claim18

theorem ClaimsReleased.refl (k : Sampler) : ClaimsReleased k k := ⟨rfl, .inr rfl, .inr rfl⟩

theorem ClaimsReleased.trans {k l m : Sampler} (h : ClaimsReleased k l) (h' : ClaimsReleased l m) : ClaimsReleased k m where
  only := by rw [h'.only, h.only]
  claim17 := h'.claim17.elim .inl fun e => e ▸ h.claim17
  claim18 := h'.claim18.elim .inl fun e => e ▸ h.claim18

theorem ClaimsReleased.phase {k l : Sampler} (h : ClaimsReleased k l) : l.phase = k.phase := by rw [h.only]
theorem ClaimsReleased.inFlight {k l : Sampler} (h : ClaimsReleased k l) : l.inFlight = k.inFlight := by rw [h.only]

theorem ClaimsReleased.unclaimed {k l : Sampler} (h : ClaimsReleased k l) (hu : Unclaimed i k) : Unclaimed i l :=
  ⟨fun e => h.claim17.elim (fun n => nomatch n.symm.trans e) fun n => hu.1 (n.symm.trans e),
    fun e => h.claim18.elim (fun n => nomatch n.symm.trans e) fun n => hu.2 (n.symm.trans e)⟩

/-- The marks, the fault count, the condition, the parked result and the last reference of the sampler. -/
structure MarksKept (k l : Sampler) : Prop where
  marks : l.marks = k.marks
  count : l.faultCount = k.faultCount
  condition : l.analyserFault = k.analyserFault
  parked : l.parked = k.parked
  reference : l.lastReference = k.lastReference

theorem MarksKept.refl (k : Sampler) : MarksKept k k := ⟨rfl, rfl, rfl, rfl, rfl⟩

theorem MarksKept.trans {k l m : Sampler} (h : MarksKept k l) (h' : MarksKept l m) : MarksKept k m :=
  ⟨h'.marks.trans h.marks, h'.count.trans h.count, h'.condition.trans h.condition, h'.parked.trans h.parked,
    h'.reference.trans h.reference⟩

theorem ClaimsReleased.marksKept {k l : Sampler} (h : ClaimsReleased k l) : MarksKept k l :=
  ⟨by rw [h.only], by rw [h.only], by rw [h.only], by rw [h.only], by rw [h.only]⟩

theorem standDown_claims (i : StationIx) (s : State) : ClaimsReleased s.sampler (standDown i plain s).sampler := by
  rw [standDown_plain]
  split
  · refine ⟨rfl, ?_, ?_⟩
    · exact iteInduction (motive := fun c => c = none ∨ c = s.sampler.claim17) (fun _ => .inl rfl) fun _ => .inr rfl
    · exact iteInduction (motive := fun c => c = none ∨ c = s.sampler.claim18) (fun _ => .inl rfl) fun _ => .inr rfl
  · exact .refl s.sampler

theorem standDownAll_claims (s : State) : ClaimsReleased s.sampler (standDownAll plainly s).sampler := by
  unfold standDownAll
  simp only [plainly_eq]
  refine forStations_keeps (P := fun t => ClaimsReleased s.sampler t.sampler) (fun i t ht => ?_) (.refl _)
  exact ht.trans (standDown_claims i t)

theorem startSampler_awake (h : s.sampler.phase ≠ .stopped) : startSampler plain s = s := if_neg h

theorem tripOrder_asleep (changed : List StationIx) (h : ∀ j, (s.work j).state.active = false) :
    (tripOrder plain changed s).sampler = s.sampler := (tripOrder_steered changed s).driven.asleep h

theorem trip_started (o : TripOrigin) (s : State) :
    ∃ u, trip plainly o s = startSampler plain u ∧ ClaimsReleased s.sampler u.sampler := by
  refine ⟨_, trip_plainly s o, ?_⟩
  have stood := standDownAll_claims (tripUnit o s)
  have ordered := tripOrder_asleep (standDownChanges (tripUnit o s))
    fun j => (standDownAll_stoodDown (tripUnit o s) j).asleep
  rw [← ordered] at stood
  exact stood

theorem trip_sampler (o : TripOrigin) (h : s.sampler.phase ≠ .stopped) :
    ClaimsReleased s.sampler (trip plainly o s).sampler := by
  obtain ⟨u, same, released⟩ := trip_started o s
  have phase : u.sampler.phase = s.sampler.phase := released.phase
  rw [same, startSampler_awake (phase ▸ h)]
  exact released

theorem startSampler_marks (s : State) : MarksKept s.sampler (startSampler plain s).sampler := by
  unfold startSampler
  split
  · split
    · exact ⟨rfl, rfl, rfl, rfl, rfl⟩
    · have kept := select_reselected { s with sampler := { s.sampler with phase := .idle } }
      exact ⟨kept.marks, kept.faultCount, kept.analyserFault, kept.parked, kept.lastReference⟩
  · exact .refl _

theorem trip_marks (o : TripOrigin) (s : State) : MarksKept s.sampler (trip plainly o s).sampler := by
  obtain ⟨u, same, released⟩ := trip_started o s
  exact same ▸ released.marksKept.trans (startSampler_marks u)

/-- The queue of events only grows at its tail. -/
theorem grown_steady (l : List EventRecord) : TableSteady fun s => l <+: s.events.queue where
  raise k n e v h := h.trans (raise_queue_grows k n e v _)
  soft _ _ _ h := h
  aim i r h := by
    unfold aimed
    split <;> exact h
  enter i n f g _ _ _ h := by
    rw [enterState_plain, tellSampler_samplerOnly]
    exact h.trans (raise_queue_grows _ _ _ _ (State.setWork _ _ _))
  enterAim i n f g r _ h := by
    unfold aimed
    rw [enterState_plain, tellSampler_samplerOnly]
    split <;> exact h.trans (raise_queue_grows _ _ _ _ (State.setWork _ _ _))
  standDown i h := by
    rw [standDown_plain]
    split
    · exact h.trans (raise_queue_grows _ _ _ _ (State.setWork _ _ _))
    · exact h
  selection _ _ _ h := h
  drive _ _ h := h

theorem enterState_stands (i : StationIx) (new : StationState) (l : List WorkField) (f : StationWork → StationWork)
    (s : State) : SamplerStands s.sampler (enterState plain i new l f s).sampler := by
  obtain ⟨u, same, -, -, told⟩ := enterState_sampler_step i new l f s
  rw [told, ← same]
  exact tellSampler_stands i _ new u

/-- What no change of the table moves in the sampler. -/
theorem stands_steady (k : Sampler) : TableSteady fun s => SamplerStands k s.sampler where
  raise _ _ _ _ h := h
  soft _ _ _ h := h
  aim i r h := by rwa [aimed_sampler]
  enter i n f g _ _ _ h := by
    exact h.trans (enterState_stands i n f g _)
  enterAim i n f g r _ h := by
    rw [aimed_sampler]
    exact h.trans (enterState_stands i n f g _)
  standDown i h := by
    rw [standDown_plain]
    split
    · exact h.trans (dropClaim_stands i _)
    · exact h
  selection _ _ hk h := h.trans hk
  drive _ _ h := h

theorem startSampler_events (s : State) : (startSampler plain s).events = s.events := by
  rw [startSampler_samplerOnly]

theorem trip_grows (o : TripOrigin) (s : State) :
    (tripUnit o s).events.queue <+: (trip plainly o s).events.queue := by
  rw [trip_plainly, startSampler_events]
  generalize tripUnit o s = u
  have hP := grown_steady u.events.queue
  refine hP.tripOrder _ ?_
  unfold standDownAll
  simp only [plainly_eq]
  exact forStations_keeps (P := fun t => u.events.queue <+: t.events.queue) (fun i t ht => hP.standDown i ht)
    (List.prefix_refl _)

theorem setMode_grows (m : BankMode) (s : State) : s.events.queue <+: (setMode m s).events.queue :=
  raise_queue_grows .mode 0 none (some (m.code + 16 * s.bank.mode.code))
    { s with bank := { s.bank with mode := m, isolation := m = .running } }

theorem tripUnit_events (o : TripOrigin) (s : State) : (setMode .tripped s).events.queue <+: (tripUnit o s).events.queue := by
  unfold tripUnit
  dsimp only
  exact raise_queue_grows .trip 0 none _ _

theorem tripUnit_grows (o : TripOrigin) (s : State) : s.events.queue <+: (tripUnit o s).events.queue :=
  (setMode_grows .tripped s).trans (tripUnit_events o s)

end Trip

/-! ### What an evaluation leaves -/

/-- The measurement unit, the balancer, the bank link and the round timer stand. -/
structure Apart (s t : State) : Prop where
  measure : t.measure = s.measure
  balancer : t.balancer = s.balancer
  link : t.link = s.link
  roundTimer : t.bank.roundTimer = s.bank.roundTimer

section Evaluation

variable {s t u : State} {i : StationIx}

theorem Apart.refl (s : State) : Apart s s := ⟨rfl, rfl, rfl, rfl⟩

theorem Apart.trans (h : Apart s t) (k : Apart t u) : Apart s u :=
  ⟨k.measure.trans h.measure, k.balancer.trans h.balancer, k.link.trans h.link, k.roundTimer.trans h.roundTimer⟩

theorem Apart.of_table (h : TableChange s t) : Apart s t := ⟨h.measure, h.balancer, h.link, by rw [h.bank]⟩

theorem tripUnit_apart (o : TripOrigin) (s : State) : Apart s (tripUnit o s) := ⟨rfl, rfl, rfl, rfl⟩

theorem trip_apart (o : TripOrigin) (s : State) : Apart s (trip plainly o s) := by
  rw [trip_plainly]
  exact (tripUnit_apart o s).trans (.of_table ((standDownAll_table _).trans ((tripOrder_table _ _).trans (startSampler_table _))))

theorem refreshOutput_apart (s : State) : Apart s (refreshOutput s) := ⟨rfl, rfl, rfl, rfl⟩

theorem followOutput_apart (s : State) : Apart s (followOutput s) := by
  unfold followOutput
  split
  · exact ⟨rfl, rfl, rfl, rfl⟩
  · split <;> exact ⟨rfl, rfl, rfl, rfl⟩

theorem tripAndRefresh_apart (o : TripOrigin) (s : State) : Apart s (tripAndRefresh plainly o s) :=
  (trip_apart o s).trans (refreshOutput_apart _)

theorem tripIfDue_apart (s : State) : Apart s (tripIfDue plainly s) := by
  unfold tripIfDue
  split
  · exact tripAndRefresh_apart ..
  · exact .refl s

theorem evaluateTrip_apart (need : State → List Nat) (s : State) : Apart s (evaluateTrip plainly need s) := by
  rw [evaluateTrip_plainly]
  exact (refreshOutput_apart s).trans ((followOutput_apart _).trans (tripIfDue_apart _))

theorem refreshOutput_bank (s : State) : (refreshOutput s).bank = s.bank := rfl

theorem refreshOutput_work (s : State) (j : StationIx) : (refreshOutput s).work j = s.work j := rfl

theorem refreshOutput_sampler (s : State) : (refreshOutput s).sampler = s.sampler := rfl

theorem refreshOutput_events (s : State) : (refreshOutput s).events = s.events := rfl

theorem tripAndRefresh_mode (o : TripOrigin) (s : State) : (tripAndRefresh plainly o s).bank.mode = .tripped := by
  rw [tripAndRefresh, refreshOutput_bank, (trip_bank s o).1]

theorem functionValue_followOutput (s : State) : functionValue (followOutput s) = functionValue s := by
  unfold followOutput
  split
  · rfl
  · split <;> rfl

theorem followOutput_output (s : State) : (followOutput s).trip.output = s.trip.output := by
  unfold followOutput
  split
  · rfl
  · split <;> rfl

theorem followOutput_stations (s : State) : (followOutput s).stations = s.stations := by
  unfold followOutput
  split
  · rfl
  · split <;> rfl

theorem followOutput_mode (s : State) : (followOutput s).bank = s.bank := by
  unfold followOutput
  split
  · rfl
  · split <;> rfl

theorem followOutput_settings (s : State) : (followOutput s).settings = s.settings := by
  unfold followOutput
  split
  · rfl
  · split <;> rfl

theorem current_evaluateTrip_plainly (need : State → List Nat) (s : State) : Current (evaluateTrip plainly need s) := by
  rw [evaluateTrip_plainly]
  unfold tripIfDue
  split
  · exact current_refreshOutput _
  · unfold Current
    rw [functionValue_followOutput, followOutput_output]
    rfl

/-- The timer as the output drives it (R169). -/
theorem followOutput_timer_off (h : s.bank.mode = .tripped ∨ s.trip.output = false) : (followOutput s).trip.timer = none := by
  unfold followOutput
  rw [if_pos (by simpa using h)]

theorem followOutput_timer_on (hm : s.bank.mode ≠ .tripped) (ho : s.trip.output = true) :
    (followOutput s).trip.timer = some (s.trip.timer.getD s.elapsed) := by
  unfold followOutput
  rw [if_neg (by simp [hm, ho])]
  split
  case h_1 started => simp [started]
  case h_2 stopped => simp [stopped]

theorem tripIfDue_not_due (h : tripDue s = false) : tripIfDue plainly s = s := if_neg (by simp [h])

theorem tripDue_persistent (h : persistenceOf s.settings.trip.persistence ≠ 0) : tripDue s = false := by
  simp [tripDue, h]

theorem tripDue_stopped (h : s.trip.timer = none) : tripDue s = false := by
  simp [tripDue, h]

theorem evaluateTrip_off (need : State → List Nat) (h : functionValue s = false ∨ s.bank.mode = .tripped) :
    (evaluateTrip plainly need s).trip.timer = none ∧ (evaluateTrip plainly need s).bank = s.bank := by
  have stopped : (followOutput (refreshOutput s)).trip.timer = none := followOutput_timer_off h.symm
  rw [evaluateTrip_plainly, tripIfDue_not_due (tripDue_stopped stopped)]
  exact ⟨stopped, followOutput_mode _⟩

theorem evaluateTrip_on (need : State → List Nat) (hf : functionValue s = true) (hm : s.bank.mode ≠ .tripped)
    (hp : persistenceOf s.settings.trip.persistence ≠ 0) :
    (evaluateTrip plainly need s).trip.timer = some (s.trip.timer.getD s.elapsed) ∧
      (evaluateTrip plainly need s).bank = s.bank := by
  have still : tripDue (followOutput (refreshOutput s)) = false := by
    refine tripDue_persistent ?_
    rw [followOutput_settings]
    exact hp
  rw [evaluateTrip_plainly, tripIfDue_not_due still]
  exact ⟨followOutput_timer_on hm hf, followOutput_mode _⟩

theorem evaluateTrip_due (need : State → List Nat) (hf : functionValue s = true) (hm : s.bank.mode ≠ .tripped)
    (hp : persistenceOf s.settings.trip.persistence = 0) : (evaluateTrip plainly need s).bank.mode = .tripped := by
  have timer : (followOutput (refreshOutput s)).trip.timer = some (s.trip.timer.getD s.elapsed) :=
    followOutput_timer_on hm hf
  have due : tripDue (followOutput (refreshOutput s)) = true := by
    rw [tripDue, timer, followOutput_settings]
    exact decide_eq_true hp
  rw [evaluateTrip_plainly, tripIfDue, if_pos due, tripAndRefresh_mode]

/-- An evaluation leaves what Safety says of one (R168, R169). -/
theorem evaluateTrip_evaluated (need : State → List Nat) (s : State) : Evaluated s (evaluateTrip plainly need s) := by
  refine ⟨current_evaluateTrip_plainly need s, fun h => ?_, fun hf hm hp => ?_, fun hf hm hp => evaluateTrip_due need hf hm hp⟩
  · exact ⟨(evaluateTrip_off need h).1, by rw [(evaluateTrip_off need h).2]⟩
  · exact ⟨(evaluateTrip_on need hf hm hp).1, by rw [(evaluateTrip_on need hf hm hp).2]⟩

/-- Where no trip is due, the rest of the part is as it was. -/
theorem evaluateTrip_quiet (need : State → List Nat) (h : NoTripDue s) :
    evaluateTrip plainly need s = { s with trip := (evaluateTrip plainly need s).trip } := by
  rw [evaluateTrip_of_noTripDue need h]
  unfold followOutput
  split
  · rfl
  · split <;> rfl

/-- An evaluation moves the output and the timer, and trips the bank where that is due (R168, R169). -/
theorem evaluateTrip_cases (need : State → List Nat) (s : State) :
    evaluateTrip plainly need s = followOutput (refreshOutput s) ∨
      evaluateTrip plainly need s = tripAndRefresh plainly .function (followOutput (refreshOutput s)) := by
  rw [evaluateTrip_plainly, tripIfDue]
  split
  · exact .inr rfl
  · exact .inl rfl

theorem followed_work (s : State) (j : StationIx) : (followOutput (refreshOutput s)).work j = s.work j := by
  rw [State.work, State.station, followOutput_stations]
  rfl

theorem followed_sampler (s : State) : (followOutput (refreshOutput s)).sampler = s.sampler := by
  unfold followOutput
  split
  · rfl
  · split <;> rfl

theorem followed_events (s : State) : (followOutput (refreshOutput s)).events = s.events := by
  unfold followOutput
  split
  · rfl
  · split <;> rfl

/-- Every station is as it was, or has been stood down by a trip. -/
theorem evaluateTrip_work (need : State → List Nat) (s : State) :
    (∀ j, (evaluateTrip plainly need s).work j = s.work j) ∨
      ∀ j, StoodDown (s.work j) ((evaluateTrip plainly need s).work j) := by
  rcases evaluateTrip_cases need s with e | e
  · exact .inl fun j => by rw [e, followed_work]
  · refine .inr fun j => ?_
    have stood := trip_stoodDown .function (followOutput (refreshOutput s)) j
    rw [followed_work] at stood
    rw [e, tripAndRefresh, refreshOutput_work]
    exact stood

theorem evaluateTrip_damaged (need : State → List Nat) (s : State) (j : StationIx) :
    ((evaluateTrip plainly need s).work j).damaged = (s.work j).damaged :=
  (evaluateTrip_work need s).elim (fun h => by rw [h]) fun h => (h j).damaged

theorem evaluateTrip_count (need : State → List Nat) (s : State) (j : StationIx) :
    ((evaluateTrip plainly need s).work j).quarantineCount = (s.work j).quarantineCount :=
  (evaluateTrip_work need s).elim (fun h => by rw [h]) fun h => (h j).count

theorem evaluateTrip_sampler (need : State → List Nat) (h : s.sampler.phase ≠ .stopped) :
    ClaimsReleased s.sampler (evaluateTrip plainly need s).sampler := by
  rcases evaluateTrip_cases need s with e | e
  · rw [e, followed_sampler]
    exact .refl _
  · have released := trip_sampler (s := followOutput (refreshOutput s)) .function (by rw [followed_sampler]; exact h)
    rw [followed_sampler] at released
    rw [e, tripAndRefresh, refreshOutput_sampler]
    exact released

theorem evaluateTrip_marks (need : State → List Nat) (s : State) :
    MarksKept s.sampler (evaluateTrip plainly need s).sampler := by
  rcases evaluateTrip_cases need s with e | e
  · rw [e, followed_sampler]
    exact .refl _
  · have kept := trip_marks .function (followOutput (refreshOutput s))
    rw [followed_sampler] at kept
    rw [e, tripAndRefresh, refreshOutput_sampler]
    exact kept

theorem evaluateTrip_grows (need : State → List Nat) (s : State) :
    s.events.queue <+: (evaluateTrip plainly need s).events.queue := by
  rcases evaluateTrip_cases need s with e | e
  · rw [e, followed_events]
  · rw [e, ← followed_events s, tripAndRefresh, refreshOutput_events]
    exact (tripUnit_grows .function _).trans (trip_grows .function _)

/-- What stands at the tail of a queue stands on in one that grows. -/
theorem first_of_grown {l l' : List EventRecord} {e : EventRecord} (h : l ++ [e] <+: l') : ∃ rest, l' = l ++ e :: rest := by
  obtain ⟨rest, rfl⟩ := h
  exact ⟨rest, by simp⟩

end Evaluation

/-! ### Requests on the control port -/

/-- The control port holds a request that is answered with a status alone. -/
def answeredWith (kind : Byte) (c : Status) (t : State) : State := setHeld .control (some ⟨kind, [c.code], false, none⟩) t

section Answers

variable {row : RequestRow} {r : Request} {s t : State} {c : Instr} {st : Status} {onward : State → State}

@[simp] theorem answeredWith_work (kind : Byte) (st : Status) (t : State) (i : StationIx) :
    (answeredWith kind st t).work i = t.work i := rfl
@[simp] theorem answeredWith_cfg (kind : Byte) (st : Status) (t : State) (i : StationIx) :
    (answeredWith kind st t).cfg i = t.cfg i := rfl

theorem answeredWith_answered (kind : Byte) (st : Status) (t : State) : Answered kind st (answeredWith kind st t) := rfl

/-- A request that its owner takes. -/
theorem exec_owner (hc : requestOf c = some (row, r)) (hq : row.query = false) (h : TakenControl r s)
    (hl : row.lengthOk r.body.length = true) : exec c s = .next (holdAnswer .control row.kind
      ((row.act plain .control r.body (received .control s)).settled (received .control s))) := by
  obtain ⟨taken, hp⟩ := h
  rw [exec_of_request hc, performRequest_owner taken (.inr hp) hl, hp, hq]
  rfl

theorem received_clean (h : TakenControl r s) : (received .control s).memory.Clean :=
  (received_undisturbed .control h.1.1).2

/-- One that changes no trip condition. -/
theorem exec_stored (hc : requestOf c = some (row, r)) (hq : row.query = false) (h : TakenControl r s)
    (hl : row.lengthOk r.body.length = true)
    (ha : row.act plain .control r.body (received .control s) = ⟨t, st, [], none, onward, false⟩)
    (ht : (onward t).memory.Clean) : exec c s = .next (answeredWith row.kind st (onward t)) := by
  rw [exec_owner hc hq h hl, ha, settled_clean _ (received_clean h) ht]
  rfl

/-- One behind which the trip function is evaluated. -/
theorem exec_evaluated (hc : requestOf c = some (row, r)) (hq : row.query = false) (h : TakenControl r s)
    (hl : row.lengthOk r.body.length = true)
    (ha : row.act plain .control r.body (received .control s) = ⟨t, st, [], none, onward, true⟩)
    (ht : (onward t).memory.Clean) :
    exec c s = .next (answeredWith row.kind st (evaluateTrip plainly noWords (onward t))) := by
  rw [exec_owner hc hq h hl, ha, settled_clean _ (received_clean h) ht]
  rfl

/-- One that its owner refuses. -/
theorem exec_refused (hc : requestOf c = some (row, r)) (hq : row.query = false) (h : TakenControl r s)
    (hl : row.lengthOk r.body.length = true)
    (ha : row.act plain .control r.body (received .control s) = refuse st (received .control s)) :
    exec c s = .next (replied .control row.kind [st.code] none s) :=
  exec_stored (onward := id) hc hq h hl ha (received_clean h)

end Answers

end Sys2Proof.Proofs
end

section
/-! The sampler's requests (R56, R58, R59, R63, R72): SAMPLE NOW, SWEEP SET, LINE SET, CLEAR LINE and CLEAR ANALYSER. -/

namespace Sys2Proof.Proofs

open Sys2Proof Sys2Proof.Machine Sys2Proof.Laws

/-! ### SAMPLE NOW (R63) -/

section SampleNow

variable {r : Request} {s t : State} {i : StationIx} {n : Byte}

theorem sampleNow_act (hb : r.body = [n, 9]) (hn : n.toNat = i.val + 1) :
    sampleNowRow.act plain .control r.body (received .control s) = sampleNowCommand plain i (received .control s) := by
  rw [hb]
  exact commandRow_act_station _ _ _ hn rfl

theorem exec_sampleNow_refused {st : Status} (h : TakenControl r s) (hb : r.body = [n, 9]) (hn : n.toNat = i.val + 1)
    (ha : sampleNowCommand plain i (received .control s) = refuse st (received .control s)) :
    exec (.sampleNow r) s = .next (replied .control 0x11 [st.code] none s) :=
  exec_refused (row := sampleNowRow) rfl rfl h (by rw [hb]; rfl) ((sampleNow_act hb hn).trans ha)

theorem exec_sampleNow_accepted (h : TakenControl r s) (hb : r.body = [n, 9]) (hn : n.toNat = i.val + 1)
    (ha : sampleNowCommand plain i (received .control s) = accept t) (ht : t.memory.Clean) :
    exec (.sampleNow r) s = .next (answeredWith 0x11 .ok t) :=
  exec_stored (row := sampleNowRow) (onward := id) rfl rfl h (by rw [hb]; rfl) ((sampleNow_act hb hn).trans ha) ht

/-- A station with no entry joins a queue that has room, and an IDLE sampler selects (R62, R63). -/
theorem addDemand_joins (hi : i ∉ s.sampler.demand) (hl : s.sampler.demand.length < 6) :
    addDemand plain i s = select { s with sampler := { s.sampler with demand := s.sampler.demand ++ [i] } } := by
  have room : s.sampler.demand.length < Config.demandCapacity := hl
  rw [addDemand, if_neg hi, if_pos room, selectBy_plain]

theorem sampleNowCommand_joins (hs : sampleable s i = true) (hi : i ∉ s.sampler.demand) (hl : s.sampler.demand.length < 6) :
    sampleNowCommand plain i s =
      accept (select { s with sampler := { s.sampler with demand := s.sampler.demand ++ [i] } }) := by
  have room : ¬ Config.demandCapacity ≤ s.sampler.demand.length := Nat.not_le.2 hl
  simp only [sampleNowCommand, hs, Bool.not_true, Bool.false_eq_true, if_false, List.contains_iff_mem, hi, room]
  rw [addDemand_joins hi hl]

/-- Settles O32. -/
theorem sampleNowAddsDemand : Obligations.SampleNowAddsDemand := by
  unfold Obligations.SampleNowAddsDemand
  refine ⟨refusesOtherNumbers_of_row (operation := 9) (c := .sampleNow) fun _ => rfl, fun r s i n h hb hn =>
    ⟨fun hs => ?unsampleable, fun hs hi => ?listed, fun hs hi hl => ?full, fun hs hi hl => ⟨fun busy => ?waits,
      fun hphase hparked hd => ?begins⟩⟩⟩
  case unsampleable =>
    exact exec_sampleNow_refused (st := .wrongState) h hb hn (if_pos (by rw [Bool.not_eq_true']; exact hs))
  case listed =>
    refine exec_sampleNow_accepted h hb hn ?_ (received_clean h)
    have again : (received .control s).sampler.demand.contains i = true := List.contains_iff_mem.2 hi
    rw [sampleNowCommand, if_neg (by rw [Bool.not_eq_true', Bool.not_eq_false]; exact hs), if_pos again]
  case full =>
    have new : (received .control s).sampler.demand.contains i = false := by
      rw [← Bool.not_eq_true, List.contains_iff_mem]
      exact hi
    have capacity : Config.demandCapacity ≤ (received .control s).sampler.demand.length := hl
    refine exec_sampleNow_refused (st := .queueFull) h hb hn ?_
    rw [sampleNowCommand, if_neg (by rw [Bool.not_eq_true', Bool.not_eq_false]; exact hs), if_neg (by rw [new]; simp),
      if_pos capacity]
  case waits =>
    have joined := sampleNowCommand_joins (s := received .control s) hs hi hl
    rw [select_of_not_free (s := { received .control s with
      sampler := { (received .control s).sampler with demand := (received .control s).sampler.demand ++ [i] } }) busy] at joined
    exact exec_sampleNow_accepted h hb hn joined (received_clean (s := s) h)
  case begins =>
    have joined := sampleNowCommand_joins (s := received .control s) hs hi hl
    have alone : (received .control s).sampler.demand ++ [i] = [i] := by
      rw [show (received .control s).sampler.demand = [] from hd]
      rfl
    rw [alone, select_demand (rest := []) (i := i) (by exact hphase) (by exact hparked) rfl (by exact hs)] at joined
    exact ⟨_, _, exec_sampleNow_accepted h hb hn joined (received_clean (s := s) h), answeredWith_answered _ _ _, rfl, rfl, rfl, rfl,
      rfl, rfl, rfl⟩

end SampleNow

/-! ### SWEEP SET (R59) -/

section SweepSet

variable {r : Request} {s t : State}

theorem stationOf_stationNumber (i : StationIx) : stationOf (stationNumber i) = some i := by
  simp [stationOf, stationNumber]

theorem sweepEntries_numbers {body : List Byte} {l : List StationIx}
    (h : body.map BitVec.toNat = l.map stationNumber) : sweepEntries body = some l := by
  induction l generalizing body with
  | nil =>
    obtain rfl : body = [] := by simpa using h
    rfl
  | cons i rest ih =>
    cases body with
    | nil => simp at h
    | cons b more =>
      simp only [List.map_cons, List.cons.injEq] at h
      obtain ⟨hb, hrest⟩ := h
      have entries := ih hrest
      rw [sweepEntries] at entries
      simp only [sweepEntries, List.mapM_cons, hb, stationOf_stationNumber, entries]
      rfl

theorem sweepEntries_bad {body : List Byte} (h : ∃ b ∈ body, b.toNat = 0 ∨ 16 < b.toNat) : sweepEntries body = none := by
  induction body with
  | nil => simp at h
  | cons b rest ih =>
    rw [sweepEntries, List.mapM_cons]
    by_cases hb : b.toNat = 0 ∨ 16 < b.toNat
    · rw [stationOf_other hb]
      rfl
    · have later : ∃ b ∈ rest, b.toNat = 0 ∨ 16 < b.toNat := by
        obtain ⟨x, hx, bad⟩ := h
        rcases List.mem_cons.1 hx with rfl | hx
        · exact absurd bad hb
        · exact ⟨x, hx, bad⟩
      have none_ := ih later
      rw [sweepEntries] at none_
      rw [none_]
      cases stationOf b.toNat <;> rfl

/-- The list as it is stored, with the pointer at its beginning. -/
def sweepStored (l : List StationIx) (s : State) : State :=
  { s with sampler := { s.sampler with sweepEntries := entriesOf l, pointer := 0, passSampled := false } }

theorem setSweep_clean (l : List StationIx) (h : Undisturbed s) : setSweep l s = sweepStored l s := by
  have good : Undisturbed (sweepStored l s) := h
  exact rewriteWords_clean _ good

theorem exec_sweepSet {l : List StationIx} (h : TakenControl r s) (hl : r.body.length ≤ 32) (hb : sweepEntries r.body = some l) :
    exec (.sweepSet r) s = .next (answeredWith 0x12 .ok (select (sweepStored l (received .control s)))) := by
  have good : Undisturbed (received .control s) := received_undisturbed .control h.1.1
  have selected : selectNow checked (setSweep l (received .control s)) = select (sweepStored l (received .control s)) := by
    rw [setSweep_clean l good]
    exact selectNow_clean good.2
  have answer : sweepSetRow.act plain .control r.body (received .control s) =
      ⟨setSweep l (received .control s), .ok, [], none, selectNow checked, false⟩ := by
    simp only [sweepSetRow, hb]
    rfl
  rw [← selected]
  refine exec_stored (row := sweepSetRow) rfl rfl h (by exact decide_eq_true hl) answer ?_
  rw [selected]
  exact (PartChange.ofTable (select_table _)).clean good.2

theorem exec_sweepSet_bad (h : TakenControl r s) (hl : r.body.length ≤ 32)
    (hb : ∃ b ∈ r.body, b.toNat = 0 ∨ 16 < b.toNat) :
    exec (.sweepSet r) s = .next (replied .control 0x12 [0x12] none s) := by
  refine exec_refused (row := sweepSetRow) (st := .badValue) rfl rfl h (by exact decide_eq_true hl) ?_
  simp only [sweepSetRow, sweepEntries_bad hb]

end SweepSet

/-! ### LINE SET (R56) -/

section LineSet

variable {r : Request} {s t : State}

/-- A line that no pair names keeps its class. -/
theorem storeClasses_other {l : Line} {pairs : List (Nat × Nat)} (h : ∀ k, (l.val, k) ∉ pairs) (v : Vector LineClass 19) :
    (pairs.foldl storeClass v)[l.val] = v[l.val] := by
  induction pairs generalizing v with
  | nil => rfl
  | cons p rest ih =>
    rw [List.foldl_cons, ih fun k hk => h k (List.mem_cons_of_mem _ hk)]
    have other : p.1 ≠ l.val := fun e => h p.2 (by rw [← e]; exact List.mem_cons_self)
    simp [storeClass, other]

/-- A line that one pair names takes the class of that pair. -/
theorem storeClasses_named {l : Line} {k : Nat} {pairs : List (Nat × Nat)} (hn : (pairs.map Prod.fst).Nodup)
    (h : (l.val, k) ∈ pairs) (v : Vector LineClass 19) :
    (pairs.foldl storeClass v)[l.val] = if k = 1 then .far else .near := by
  induction pairs generalizing v with
  | nil => simp at h
  | cons p rest ih =>
    obtain ⟨hp, hrest⟩ := List.nodup_cons.1 hn
    rw [List.foldl_cons]
    rcases List.mem_cons.1 h with rfl | later
    · rw [storeClasses_other fun k' named => hp (List.mem_map.2 ⟨_, named, rfl⟩)]
      simp [storeClass]
    · exact ih hrest later _

theorem setLines_clean (pairs : List (Nat × Nat)) (h : Undisturbed s) :
    setLines pairs s = { s with sampler := { s.sampler with classes := pairs.foldl storeClass s.sampler.classes } } := by
  have good : Undisturbed
      { s with sampler := { s.sampler with classes := pairs.foldl storeClass s.sampler.classes } } := h
  unfold setLines
  split
  case isTrue none_ => rw [List.isEmpty_iff.1 none_]; rfl
  case isFalse => exact rewriteWords_clean _ good

theorem exec_lineSet (h : TakenControl r s) (hl : r.body.length % 2 = 0) (ok : linePairsOk (pairsOf r.body) = true) :
    exec (.lineSet r) s = .next (replied .control 0x13 [0x00] none
      { s with sampler := { s.sampler with classes := (pairsOf r.body).foldl storeClass s.sampler.classes } }) := by
  have good : Undisturbed (received .control s) := received_undisturbed .control h.1.1
  have answer : lineSetRow.act plain .control r.body (received .control s) =
      accept (setLines (pairsOf r.body) (received .control s)) := if_pos ok
  rw [setLines_clean _ good] at answer
  exact exec_stored (row := lineSetRow) (onward := id) rfl rfl h (by exact decide_eq_true hl) answer good.2

theorem exec_lineSet_bad (h : TakenControl r s) (hl : r.body.length % 2 = 0) (bad : linePairsOk (pairsOf r.body) = false) :
    exec (.lineSet r) s = .next (replied .control 0x13 [0x12] none s) :=
  exec_refused (row := lineSetRow) (st := .badValue) rfl rfl h (by exact decide_eq_true hl) (if_neg (by simp [bad]))

/-- Settles O35. -/
theorem sweepAndLineSet : Obligations.SweepAndLineSet := by
  unfold Obligations.SweepAndLineSet
  refine fun r s h => ⟨fun l hl hb => ?sweep, fun hl bad => exec_sweepSet_bad h hl bad, fun hl ok => ?lines,
    fun hl bad => exec_lineSet_bad h hl bad⟩
  case sweep =>
    have capacity : l.length ≤ Config.sweepCapacity := by
      have := congrArg List.length hb
      simp only [List.length_map] at this
      exact this ▸ hl
    have kept := select_reselected (sweepStored l (received .control s))
    refine ⟨_, exec_sweepSet h hl (sweepEntries_numbers hb), answeredWith_answered _ _ _,
      sweepList_entriesOf capacity kept.sweepEntries, ?only, kept.marks, kept.classes, fun busy => ?waits, fun k => ?entries⟩
    case only =>
      unfold answeredWith
      rw [kept.only]
      rfl
    case waits =>
      have same : select (sweepStored l (received .control s)) = sweepStored l (received .control s) :=
        select_of_not_free (.inl busy)
      unfold answeredWith
      rw [same]
      rfl
    case entries =>
      have stored : (answeredWith 0x12 .ok (select (sweepStored l (received .control s)))).sampler.sweepEntries = entriesOf l :=
        kept.sweepEntries
      simp only [stored]
      exact entriesFrom_get _ _ k.isLt
  case lines =>
    refine ⟨_, exec_lineSet h hl ok, fun l => ?_⟩
    simp only [linePairsOk, Bool.and_eq_true, decide_eq_true_eq] at ok
    exact ⟨fun hn => storeClasses_named ok.2 hn _, fun hf => storeClasses_named ok.2 hf _,
      fun other => storeClasses_other other _⟩

end LineSet

/-! ### CLEAR LINE (R58) -/

section ClearLine

variable {r : Request} {s t : State} {l : Line} {n : Byte}

theorem lineOf_number (h : n.toNat = l.val) : lineOf (firstByte [n]) = some l := by
  have : firstByte [n] = l.val := h
  simp [lineOf, this]

theorem lineOf_other (h : 18 < n.toNat) : lineOf (firstByte [n]) = none := by
  have : firstByte [n] = n.toNat := rfl
  exact dif_neg (by omega)

theorem clearMark_sampler (l : Line) (s : State) :
    SamplerOnly s (clearMark plain l s) ∧ (clearMark plain l s).sampler.marks = s.sampler.marks.set l.val false ∧
      ∀ i : StationIx, l.val = i.val + 1 → Unclaimed i (clearMark plain l s).sampler := by
  unfold clearMark
  dsimp only
  refine ⟨?_, ?_, fun i hi => ?_⟩
  · split <;> rfl
  · split <;> rfl
  · have named : stationOf l.val = some i := hi ▸ stationOf_stationNumber i
    rw [named]
    exact dropClaim_unclaimed i _

theorem exec_clearLine_unmarked (h : TakenControl r s) (hb : r.body = [n]) (hn : n.toNat = l.val)
    (hm : s.sampler.marks[l.val] = false) : exec (.clearLine r) s = .next (answeredWith 0x14 .ok (received .control s)) := by
  have answer : clearLineRow.act plain .control r.body (received .control s) = accept (received .control s) := by
    simp only [clearLineRow, hb, lineOf_number hn]
    exact if_neg (by rw [show (received .control s).sampler.marks[l.val] = false from hm]; simp)
  exact exec_stored (row := clearLineRow) (onward := id) rfl rfl h (by rw [hb]; rfl) answer (received_clean (s := s) h)

theorem exec_clearLine_marked (h : TakenControl r s) (hb : r.body = [n]) (hn : n.toNat = l.val)
    (hm : s.sampler.marks[l.val] = true) :
    exec (.clearLine r) s = .next (answeredWith 0x14 .ok (select (clearMark plain l (received .control s)))) := by
  have clean : (clearMark plain l (received .control s)).memory.Clean := by
    rw [(clearMark_sampler l _).1]
    exact received_clean (s := s) h
  have answer : clearLineRow.act plain .control r.body (received .control s) =
      ⟨clearMark plain l (received .control s), .ok, [], none, selectNow checked, false⟩ := by
    simp only [clearLineRow, hb, lineOf_number hn]
    exact if_pos hm
  rw [← selectNow_clean clean]
  refine exec_stored (row := clearLineRow) rfl rfl h (by rw [hb]; rfl) answer ?_
  rw [selectNow_clean clean]
  exact (PartChange.ofTable (select_table _)).clean clean

end ClearLine

/-! ### CLEAR ANALYSER (R72) -/

section ClearAnalyser

variable {r : Request} {s t : State}

/-- A PAUSED sampler is freed and selects; any other goes on. -/
def analyserCleared (s : State) : State :=
  if s.sampler.phase = .paused then select (freeSampler (clearCondition s)) else clearCondition s

/-- What clearing the condition leaves (R72). -/
structure ConditionCleared (s t : State) : Prop where
  table : TableChange s t
  count : t.sampler.faultCount = 0
  condition : t.sampler.analyserFault = false
  marks : t.sampler.marks = s.sampler.marks
  events : s.sampler.analyserFault = true → s.events.queue.length < 24 →
    t.events.queue = s.events.queue ++ [⟨.analyserFault, 0, some .clear, bankClock s, none⟩]

theorem clearCondition_cleared (s : State) : ConditionCleared s (clearCondition s) := by
  unfold clearCondition
  dsimp only
  split
  case isTrue => exact ⟨⟨rfl, fun _ => rfl⟩, rfl, rfl, rfl, fun _ room => raise_queue _ _ _ _ room⟩
  case isFalse off => exact ⟨⟨rfl, fun _ => rfl⟩, rfl, rfl, rfl, fun on => absurd on off⟩

theorem clearCondition_sampler (s : State) :
    (clearCondition s).sampler = { s.sampler with faultCount := 0, analyserFault := false } := by
  unfold clearCondition
  dsimp only
  split <;> rfl

theorem analyserCleared_cleared (s : State) : ConditionCleared s (analyserCleared s) := by
  have cleared := clearCondition_cleared s
  unfold analyserCleared
  split
  case isFalse => exact cleared
  case isTrue =>
    have kept := select_reselected (freeSampler (clearCondition s))
    exact
      { table := cleared.table.trans (.trans (.ofSampler (t := freeSampler (clearCondition s)) rfl) (select_table _))
        count := kept.faultCount.trans cleared.count
        condition := kept.analyserFault.trans cleared.condition
        marks := kept.marks.trans cleared.marks
        events := fun on room => by rw [kept.only]; exact cleared.events on room }

theorem exec_clearAnalyser (h : TakenControl r s) (hb : r.body = []) : exec (.clearAnalyser r) s =
    .next (answeredWith 0x15 .ok (evaluateTrip plainly noWords (analyserCleared (received .control s)))) := by
  have clean : (analyserCleared (received .control s)).memory.Clean :=
    (PartChange.ofTable (analyserCleared_cleared _).table).clean (received_clean h)
  by_cases hp : (received .control s).sampler.phase = .paused
  · have freed : (freeSampler (clearCondition (received .control s))).memory.Clean :=
      (PartChange.ofTable (clearCondition_cleared _).table).clean (received_clean h)
    have answer : clearAnalyserRow.act plain .control r.body (received .control s) =
        ⟨freeSampler (clearCondition (received .control s)), .ok, [], none, selectNow checked, true⟩ := by
      simp only [clearAnalyserRow, clearAnalyser, if_pos hp]
      rfl
    have onward : selectNow checked (freeSampler (clearCondition (received .control s))) =
        analyserCleared (received .control s) := by
      rw [selectNow_clean freed, analyserCleared, if_pos hp]
    rw [← onward]
    exact exec_evaluated (row := clearAnalyserRow) rfl rfl h (by rw [hb]; rfl) answer (by rw [onward]; exact clean)
  · have answer : clearAnalyserRow.act plain .control r.body (received .control s) =
        ⟨clearCondition (received .control s), .ok, [], none, id, true⟩ := by
      simp only [clearAnalyserRow, clearAnalyser, if_neg hp]
      rfl
    have onward : id (clearCondition (received .control s)) = analyserCleared (received .control s) := by
      rw [analyserCleared, if_neg hp]
      rfl
    rw [← onward]
    exact exec_evaluated (row := clearAnalyserRow) rfl rfl h (by rw [hb]; rfl) answer (by rw [onward]; exact clean)

theorem analyserCleared_phase (s : State) :
    (s.sampler.phase = .paused →
      (analyserCleared s).sampler.phase = .idle ∨ (analyserCleared s).sampler.phase = .purging) ∧
    (s.sampler.phase ≠ .paused → (analyserCleared s).sampler.phase = s.sampler.phase ∧
      (analyserCleared s).sampler.inFlight = s.sampler.inFlight) := by
  refine ⟨fun hp => ?_, fun hp => ?_⟩
  · rw [analyserCleared, if_pos hp]
    exact select_phase rfl
  · rw [analyserCleared, if_neg hp, clearCondition_sampler]
    exact ⟨rfl, rfl⟩

/-- What CLEAR ANALYSER leaves behind the evaluation (R72, R168). -/
theorem exec_clearAnalyser_spec (h : TakenControl r s) (hb : r.body = []) :
    ∃ t, exec (.clearAnalyser r) s = .next t ∧ Answered 0x15 .ok t ∧ t.sampler.faultCount = 0 ∧
      t.sampler.analyserFault = false ∧ t.sampler.marks = s.sampler.marks ∧ Kept s t ∧ t.pins = s.pins ∧
      t.elapsed = s.elapsed ∧ t.measure = s.measure ∧ t.balancer = s.balancer ∧
      (s.sampler.phase = .paused → t.sampler.phase = .idle ∨ t.sampler.phase = .purging) ∧
      (s.sampler.phase = .purging ∨ s.sampler.phase = .reading → t.sampler.phase = s.sampler.phase ∧
        t.sampler.inFlight = s.sampler.inFlight) ∧
      (s.sampler.analyserFault = true → s.events.queue.length < 24 → ∃ l, t.events.queue =
        s.events.queue ++ ⟨.analyserFault, 0, some .clear, bankClock s, none⟩ :: l) := by
  have cleared := analyserCleared_cleared (received .control s)
  obtain ⟨freed, others⟩ := analyserCleared_phase (received .control s)
  generalize hu : analyserCleared (received .control s) = u at cleared freed others
  have marks := evaluateTrip_marks noWords u
  have part := (PartChange.ofTable cleared.table).trans (evaluateTrip_part u noWords)
  have apart := (Apart.of_table cleared.table).trans (evaluateTrip_apart noWords u)
  refine ⟨_, exec_clearAnalyser h hb, answeredWith_answered _ _ _, ?_⟩
  rw [hu]
  refine ⟨marks.count.trans cleared.count, marks.condition.trans cleared.condition, marks.marks.trans cleared.marks,
    part.kept, part.silent.2.2.2, part.elapsed, apart.measure, apart.balancer, fun hp => ?_, fun hp => ?_, fun on room => ?_⟩
  · have phase := freed hp
    have goes := (evaluateTrip_sampler (s := u) noWords (by rcases phase with e | e <;> rw [e] <;> decide)).phase
    exact phase.imp goes.trans goes.trans
  · obtain ⟨phase, flight⟩ := others (by rcases hp with e | e <;> · rw [show (received .control s).sampler.phase = _ from e]; decide)
    have goes := evaluateTrip_sampler (s := u) noWords (by
      rw [phase]
      rcases hp with e | e <;> · rw [show (received .control s).sampler.phase = _ from e]; decide)
    exact ⟨goes.phase.trans phase, goes.inFlight.trans flight⟩
  · refine first_of_grown ?_
    have first := cleared.events on room
    have grown := evaluateTrip_grows noWords u
    rw [first] at grown
    exact grown

/-- Settles O36. -/
theorem clearLineAndAnalyser : Obligations.ClearLineAndAnalyser := by
  unfold Obligations.ClearLineAndAnalyser
  refine fun r s h => ⟨fun l n hb hn => ?line, fun n hb hn => ?other, fun hb => exec_clearAnalyser_spec h hb⟩
  case line =>
    cases hm : s.sampler.marks[l.val] with
    | false =>
      refine ⟨_, exec_clearLine_unmarked h hb hn hm, answeredWith_answered _ _ _, rfl, ?_, fun _ _ on => by simp at on⟩
      refine Vector.ext fun k hk => ?_
      by_cases hkl : l.val = k
      · subst hkl
        rw [Vector.getElem_set_self]
        exact hm
      · rw [Vector.getElem_set_ne _ _ hkl]
        rfl
    | true =>
      obtain ⟨only, marks, unclaimed⟩ := clearMark_sampler l (received .control s)
      have kept := select_reselected (clearMark plain l (received .control s))
      refine ⟨_, exec_clearLine_marked h hb hn hm, answeredWith_answered _ _ _, ?_, kept.marks.trans marks,
        fun i hi _ => ⟨fun e => (unclaimed i hi).1 (kept.claim17 ▸ e), fun e => (unclaimed i hi).2 (kept.claim18 ▸ e)⟩⟩
      unfold answeredWith
      rw [kept.only, only]
      rfl
  case other =>
    refine exec_refused (row := clearLineRow) (st := .badValue) rfl rfl h (by rw [hb]; rfl) ?_
    simp only [clearLineRow, hb, lineOf_other hn]

end ClearAnalyser

end Sys2Proof.Proofs
end

section
/-! STATION SET (R13 to R16): an UNUSED station is assigned, and an assigned one is stored and brought into line. -/

namespace Sys2Proof.Proofs

open Sys2Proof Sys2Proof.Machine Sys2Proof.Laws

/-! ### What the trip function sees of a change -/

section Conditions

variable {s t : State} {i : StationIx}

/-- The settings and the conditions of two states are the same (R166). -/
structure SameConditions (s t : State) : Prop where
  settings : t.settings = s.settings
  balancer : t.balancer = s.balancer
  measure : t.measure = s.measure
  pins : t.pins = s.pins
  drive : t.trip.linkDrive = s.trip.linkDrive
  setting : t.memory.damagedSetting = s.memory.damagedSetting
  damaged : ∀ j, (t.work j).damaged = (s.work j).damaged
  fault : t.sampler.analyserFault = s.sampler.analyserFault

theorem SameConditions.functionValue (h : SameConditions s t) : functionValue t = functionValue s := by
  refine functionValue_congr (by rw [h.settings]) fun c => ?_
  cases c <;> simp only [condition, suctionLow, suctionInput, linkTrip, recordDamaged, h.settings, h.balancer, h.measure,
    h.pins, h.drive, h.setting, h.damaged, h.fault]

theorem SameConditions.noTripDue (h : SameConditions s t) (hb : t.bank.mode = s.bank.mode) (hs : NoTripDue s) :
    NoTripDue t := by
  unfold NoTripDue at *
  rwa [h.functionValue, h.settings, hb]

theorem SameConditions.of_table (h : TableChange s t) (hd : ∀ j, (t.work j).damaged = (s.work j).damaged)
    (hf : t.sampler.analyserFault = s.sampler.analyserFault) : SameConditions s t :=
  ⟨h.settings, h.balancer, h.measure, h.pins, by rw [h.trip], by rw [h.memory], hd, hf⟩

theorem Driven.damaged (h : Driven s t) (j : StationIx) : (t.work j).damaged = (s.work j).damaged :=
  (h.work j).elim Reported.damaged fun k => k.2.damaged

theorem Driven.quarantineCount (h : Driven s t) (j : StationIx) :
    (t.work j).quarantineCount = (s.work j).quarantineCount :=
  (h.work j).elim Reported.quarantineCount fun k => k.2.quarantineCount

theorem Driven.sameConditions (h : Driven s t) : SameConditions s t := .of_table h.table h.damaged h.sampler.fault

/-- The target change keeps what it does not write. -/
theorem aimed_keeps {α : Type} {f : StationWork → α}
    (hf : ∀ w n e b, f { w with target := n, settleExpiry := e, fresh := b } = f w) (i j : StationIx) (r : Nat) (s : State) :
    f ((aimed i r s).work j) = f (s.work j) := by
  by_cases hj : j = i
  · subst hj
    obtain ⟨e, g, -, h⟩ := aimed_work_same j r s
    rw [h]
    exact hf ..
  · rw [aimed_work_other hj]

theorem aimed_table (i : StationIx) (r : Nat) (s : State) : TableChange s (aimed i r s) :=
  .ite (fun _ => .refl s) fun _ => setWork_table ..

theorem aimed_sameConditions (i : StationIx) (r : Nat) (s : State) : SameConditions s (aimed i r s) :=
  .of_table (aimed_table i r s) (fun j => aimed_keeps (f := StationWork.damaged) (fun _ _ _ _ => rfl) i j r s)
    (by rw [aimed_sampler])

end Conditions

/-! ### The body of a STATION SET -/

section Body

variable {r : Request} {s : State} {i : StationIx} {n : Byte} {rest : List Byte}

theorem stationItems_length (h : rest.length % 3 = 0) : stationSetRow.lengthOk (n :: rest).length = true := by
  have : (rest.length + 1) % 3 = 1 := by omega
  exact decide_eq_true this

theorem stationSet_act (hn : n.toNat = i.val + 1) (ok : itemsOk stationItemOk (itemsOf rest) = true) (s : State) :
    stationSetRow.act plain .control (n :: rest) s = stationSet plain i (itemsOf rest) s := by
  have named : bodyStation (n :: rest) = some i := stationOf_number hn
  simp only [stationSetRow, named]
  exact if_pos ok

theorem stationSet_act_badItem (ok : itemsOk stationItemOk (itemsOf rest) = false) (s : State) :
    stationSetRow.act plain .control (n :: rest) s = refuse .badValue s := by
  simp only [stationSetRow]
  split
  · exact if_neg (by rw [show (n :: rest).drop 1 = rest from rfl, ok]; simp)
  · rfl

theorem stationSet_act_badNumber (hn : n.toNat = 0 ∨ 16 < n.toNat) (s : State) :
    stationSetRow.act plain .control (n :: rest) s = refuse .badValue s := by
  have named : bodyStation (n :: rest) = none := stationOf_other hn
  simp only [stationSetRow, named]

theorem itemsOf_isEmpty (h : rest.length % 3 = 0) (hne : rest ≠ []) : (itemsOf rest).isEmpty = false := by
  match rest with
  | [] => exact absurd rfl hne
  | [_] => simp at h
  | [_, _] => simp at h
  | _ :: _ :: _ :: _ => rfl

theorem exec_stationSet_refused {st : Status} (h : TakenControl r s) (hb : r.body = n :: rest) (hl : rest.length % 3 = 0)
    (ha : stationSetRow.act plain .control (n :: rest) (received .control s) = refuse st (received .control s)) :
    exec (.stationSet r) s = .next (replied .control 0x10 [st.code] none s) :=
  exec_refused (row := stationSetRow) rfl rfl h (by rw [hb]; exact stationItems_length hl) (by rw [hb]; exact ha)

end Body

/-! ### An UNUSED station is assigned (R14) -/

section Assign

variable {r : Request} {s : State} {i : StationIx} {n : Byte} {rest : List Byte} {c : StationConfig}

theorem assignStation_clean (h : Undisturbed s) : assignStation plain i c s =
    enterState plain i .standby workFields (fun _ => StationWork.cold) (s.setCfg i c) := by
  have good : Undisturbed (s.setCfg i c) := h
  rw [assignStation, rewriteWords_clean _ good]

theorem stationSet_unused {items : List Item} (hs : (s.work i).state = .unused)
    (hr : configRefused (carriesAll items stationCodes) true (StationConfig.default.carry items) = false) :
    stationSet plain i items s =
      ⟨assignStation plain i (StationConfig.default.carry items).clampManual s, setStatus (StationConfig.default.carry items),
        [], none, id, true⟩ := by
  have unassigned : (s.work i).state.assigned = false := by rw [hs]; rfl
  simp only [stationSet, unassigned, Bool.not_false, Bool.not_true, Bool.and_false, Bool.false_eq_true, if_false, if_true, hr]
  rfl

theorem stationSet_unused_refused {items : List Item} (hs : (s.work i).state = .unused)
    (hr : configRefused (carriesAll items stationCodes) true (StationConfig.default.carry items) = true) :
    stationSet plain i items s = refuse .badValue s := by
  have unassigned : (s.work i).state.assigned = false := by rw [hs]; rfl
  simp only [stationSet, unassigned, Bool.not_false, Bool.not_true, Bool.and_false, Bool.false_eq_true, if_false, if_true, hr]

theorem configRefused_unused {full : Bool} : configRefused full true c = false ↔
    c.k ≠ 0 ∧ c.vMin ≤ c.startOpening ∧ c.startOpening ≤ c.vMax := by
  simp only [configRefused, Bool.or_eq_false_iff, decide_eq_false_iff_not, Bool.and_eq_false_iff, Bool.true_or]
  constructor
  · rintro ⟨⟨⟨-, hs⟩, hm⟩, hk⟩
    exact ⟨by simpa using hk, by omega, by omega⟩
  · rintro ⟨hk, hs, hm⟩
    exact ⟨⟨⟨by omega, by omega⟩, by omega⟩, by simpa using hk⟩

/-- Settles O33: the change of state takes every working field with it, and a trip that may follow stands an unmoved station
down. -/
theorem stationSetAssigns : Obligations.StationSetAssigns := by
  unfold Obligations.StationSetAssigns
  refine fun r s i n rest h hb hn hl ok hs => ⟨fun hk hmin hmax => ?assigned, fun bad => ?refused⟩
  case assigned =>
    have good : Undisturbed (received .control s) := received_undisturbed .control h.1.1
    have unrefused := configRefused_unused (full := carriesAll (itemsOf rest) stationCodes).2 ⟨hk, hmin, hmax⟩
    have answer := (stationSet_act hn ok (received .control s)).trans
      (stationSet_unused (s := received .control s) hs unrefused)
    rw [assignStation_clean good] at answer
    generalize hc : StationConfig.default.carry (itemsOf rest) = c at answer unrefused
    generalize hu : enterState plain i .standby workFields (fun _ => StationWork.cold)
      ((received .control s).setCfg i c.clampManual) = u at answer
    have table : TableChange ((received .control s).setCfg i c.clampManual) u := hu ▸ enterState_table ..
    have cold : u.work i = { StationWork.cold with state := .standby } := by rw [← hu, enterState_work_same]
    have clean : u.memory.Clean := (PartChange.ofTable table).clean (s := (received .control s).setCfg i c.clampManual) good.2
    have part := (PartChange.ofTable table).trans (evaluateTrip_part u noWords)
    have apart := (Apart.of_table table).trans (evaluateTrip_apart noWords u)
    have complete : c.clampManual.complete = true := by
      rw [← hc]
      exact carried_complete (unused := true) ok (itemsOf_value_le rest) (hc ▸ unrefused) (.inr (.inr ⟨rfl, rfl⟩))
    have cfg : (evaluateTrip plainly noWords u).cfg i = c.clampManual := by rw [part.cfg, setCfg_cfg_same]
    have work : ((evaluateTrip plainly noWords u).work i).state = .standby ∧
        ((evaluateTrip plainly noWords u).work i).target = 0 ∧ ((evaluateTrip plainly noWords u).work i).damaged = false ∧
        ((evaluateTrip plainly noWords u).work i).quality = none ∧
        ((evaluateTrip plainly noWords u).work i).flow = FlowRecord.cold := by
      rcases evaluateTrip_work noWords u with same | stood
      · rw [same, cold]
        exact ⟨rfl, rfl, rfl, rfl, rfl⟩
      · have down := stood i
        rw [cold] at down
        exact ⟨(down.inactive rfl).1, down.target, down.damaged, down.quality, down.flow⟩
    obtain ⟨state, target, damaged, quality, flow⟩ := work
    refine ⟨_, exec_evaluated (row := stationSetRow) (onward := id) rfl rfl h (by rw [hb]; exact stationItems_length hl)
      (by rw [hb]; exact answer) clean, cfg, cfg ▸ complete, state, target, damaged, quality, flow,
      answeredWith_answered _ _ _, part.kept.2.2.2.1, apart.measure, apart.balancer, apart.link, part.memory,
      part.silent.2.2.2, part.elapsed, fun j hj => ?_⟩
    exact (part.cfg j).trans (setCfg_cfg_other _ _ hj)
  case refused =>
    refine exec_stationSet_refused (st := .badValue) h hb hl
      ((stationSet_act hn ok _).trans (stationSet_unused_refused (s := received .control s) hs ?_))
    rw [← Bool.not_eq_false, configRefused_unused]
    omega

end Assign

/-! ### An assigned station is brought into line (R15, R16) -/

section Reclamp

variable {r : Request} {s : State} {i : StationIx} {n : Byte} {rest : List Byte} {c : StationConfig} {full : Bool}

/-- What is stored, in front of the target change. -/
def setStored (i : StationIx) (c : StationConfig) (full : Bool) (s : State) : State :=
  (s.setCfg i c).setWork i { s.work i with
    recoveryRun := runUnder (s.work i).state c.recoveryCount (s.work i).recoveryRun
    damaged := (s.work i).damaged && !full }

theorem reconfigure_clean (ws : List Nat) (h : Undisturbed s) :
    reconfigure plain i c full ws s = applyTarget plain i (s.work i).target (setStored i c full s) := by
  have good : Undisturbed (s.setCfg i c) := h
  rw [reconfigure_plain, reconfigured, rewriteWords_clean _ good]
  rfl

theorem setStored_work (i : StationIx) (c : StationConfig) (full : Bool) (s : State) : (setStored i c full s).work i =
    { s.work i with
      recoveryRun := runUnder (s.work i).state c.recoveryCount (s.work i).recoveryRun
      damaged := (s.work i).damaged && !full } := setWork_work_same ..

theorem setStored_cfg (i : StationIx) (c : StationConfig) (full : Bool) (s : State) : (setStored i c full s).cfg i = c := by
  rw [setStored, setWork_cfg, setCfg_cfg_same]

theorem setStored_cfg_other {j : StationIx} (hj : j ≠ i) : (setStored i c full s).cfg j = s.cfg j := by
  rw [setStored, setWork_cfg, setCfg_cfg_other _ _ hj]

theorem setStored_work_other {j : StationIx} (hj : j ≠ i) : (setStored i c full s).work j = s.work j := by
  rw [setStored, setWork_work_other _ _ hj, setCfg_work]

theorem setStored_drivable : Drivable i (setStored i c full s) ↔ Drivable i s := by
  rw [Drivable, setStored_work]
  exact Iff.rfl

/-- What an undamaged station's new configuration leaves of the trip conditions: nothing has changed. -/
theorem setStored_sameConditions (hd : (s.work i).damaged = false) : SameConditions s (setStored i c full s) := by
  refine ⟨rfl, rfl, rfl, rfl, rfl, rfl, fun j => ?_, rfl⟩
  by_cases hj : j = i
  · subst hj
    rw [setStored_work, hd]
    rfl
  · rw [setStored_work_other hj]

/-- A FAULTED station stays so at target 0 behind the target change (R10, R15). -/
theorem applyTarget_faulted {cause : FaultCause} {requested : Nat} (h : (s.work i).state = .faulted cause) :
    ((applyTarget plain i requested s).work i).state = .faulted cause ∧
      ((applyTarget plain i requested s).work i).target = 0 := by
  have still : ((aimed i requested s).work i).state = .faulted cause := by rw [aimed_state, h]
  rcases (applyTarget_driven i requested s).work i with k | ⟨-, k⟩
  · refine ⟨k.state.trans still, k.target.trans ?_⟩
    rw [aimed_target, h]
    rfl
  · have taken := k.taken
    rw [still] at taken
    simp [StationState.active] at taken

theorem configRefused_assigned : configRefused full false c = false ↔
    (c.vMin ≤ c.startOpening ∧ c.startOpening ≤ c.vMax) ∧ (full = true → c.k ≠ 0) := by
  simp only [configRefused, Bool.or_eq_false_iff, decide_eq_false_iff_not, Bool.and_eq_false_iff, Bool.false_or]
  constructor
  · rintro ⟨⟨⟨-, hs⟩, hm⟩, hk⟩
    refine ⟨⟨by omega, by omega⟩, fun hf => ?_⟩
    rcases hk with hk | hk
    · exact hk
    · simp [hf] at hk
  · rintro ⟨⟨hs, hm⟩, hk⟩
    refine ⟨⟨⟨by omega, by omega⟩, by omega⟩, ?_⟩
    cases full
    · exact .inr rfl
    · exact .inl (hk rfl)

theorem stationSet_assigned {items : List Item} (ha : (s.work i).state.assigned = true) (hne : items.isEmpty = false)
    (hr : configRefused (carriesAll items stationCodes) false ((s.cfg i).carry items) = false) :
    ∃ ws, stationSet plain i items s = ⟨reconfigure plain i ((s.cfg i).carry items).clampManual
      (carriesAll items stationCodes) ws s, setStatus ((s.cfg i).carry items), [], none, id, true⟩ := by
  simp only [stationSet, ha, Bool.not_true, Bool.not_false, Bool.and_true, hne, Bool.false_eq_true, if_false, hr]
  exact ⟨_, rfl⟩

theorem stationSet_assigned_refused {items : List Item} (ha : (s.work i).state.assigned = true)
    (hne : items.isEmpty = false)
    (hr : configRefused (carriesAll items stationCodes) false ((s.cfg i).carry items) = true) :
    stationSet plain i items s = refuse .badValue s := by
  simp only [stationSet, ha, Bool.not_true, Bool.not_false, Bool.and_true, hne, Bool.false_eq_true, if_false, hr, if_true]

theorem stationSet_noItems (ha : (s.work i).state.assigned = true) : stationSet plain i [] s = accept s := by
  simp [stationSet, ha]

/-- The station behind an accepted STATION SET and the evaluation that follows it. -/
theorem reclamped (u : State) (hu : u = applyTarget plain i (s.work i).target (setStored i c full s)) :
    let t := evaluateTrip plainly noWords u
    (t.work i).damaged = ((s.work i).damaged && !full) ∧
      (t.work i).quarantineCount = (s.work i).quarantineCount ∧
      (∀ cause, (s.work i).state = .faulted cause → (t.work i).state = .faulted cause ∧ (t.work i).target = 0) ∧
      ((s.work i).damaged = false → NoTripDue s → Drivable i s →
        t.bank = s.bank ∧ (t.work i).state = (s.work i).state ∧
        (t.work i).target = clampTarget c (s.work i).state (s.work i).target ∧
        (t.work i).recoveryRun = runUnder (s.work i).state c.recoveryCount (s.work i).recoveryRun) := by
  have driven := applyTarget_driven i (s.work i).target (setStored i c full s)
  rw [← hu] at driven
  have own := setStored_work i c full s
  have cfg := setStored_cfg i c full s
  refine ⟨?damaged, ?count, fun cause hf => ?faulted, fun hd quiet present => ?quiet⟩
  case damaged =>
    rw [evaluateTrip_damaged, driven.damaged, aimed_keeps (f := StationWork.damaged) (fun _ _ _ _ => rfl), own]
  case count =>
    rw [evaluateTrip_count, driven.quarantineCount, aimed_keeps (f := StationWork.quarantineCount) (fun _ _ _ _ => rfl), own]
  case faulted =>
    obtain ⟨state, target⟩ := applyTarget_faulted (s := setStored i c full s) (requested := (s.work i).target)
      (by rw [own]; exact hf)
    rw [← hu] at state target
    rcases evaluateTrip_work noWords u with same | stood
    · rw [same]
      exact ⟨state, target⟩
    · have down := stood i
      exact ⟨(down.inactive (by rw [state]; rfl)).1.trans state, down.target⟩
  case quiet =>
    have reported := driven.reported (aimed_drivable.2 (setStored_drivable.2 present))
    have undue : NoTripDue u :=
      driven.sameConditions.noTripDue (by rw [driven.table.bank])
        ((aimed_sameConditions ..).noTripDue (by rw [aimed_bank])
          ((setStored_sameConditions hd).noTripDue (t := setStored i c full s) rfl quiet))
    rw [evaluateTrip_quiet noWords undue]
    refine ⟨?_, ?_, ?_, ?_⟩
    · show u.bank = s.bank
      rw [driven.table.bank, aimed_bank]
      rfl
    · show (u.work i).state = _
      rw [reported.state, aimed_state, own]
    · show (u.work i).target = _
      rw [reported.target, aimed_target, own, cfg]
    · show (u.work i).recoveryRun = _
      rw [reported.recoveryRun, aimed_keeps (f := StationWork.recoveryRun) (fun _ _ _ _ => rfl), own]

/-- Settles O34. -/
theorem stationSetReclamps : Obligations.StationSetReclamps := by
  unfold Obligations.StationSetReclamps
  refine fun r s n rest h hb hl => ⟨fun hn => ?number, fun bad => ?item, fun i hn ok ha => ⟨fun none_ => ?noItems,
    fun some_ bad => ?openings, fun some_ hmin hmax hk => ?stored⟩⟩
  case number => exact exec_stationSet_refused (st := .badValue) h hb hl (stationSet_act_badNumber hn _)
  case item => exact exec_stationSet_refused (st := .badValue) h hb hl (stationSet_act_badItem bad _)
  case noItems =>
    have answer := stationSet_act hn ok (received .control s)
    subst none_
    have accepted := answer.trans (stationSet_noItems (s := received .control s) (by exact ha))
    exact exec_stored (c := .stationSet r) (row := stationSetRow) (t := received .control s) (st := .ok) (onward := id) rfl rfl h
      (by rw [hb]; rfl) (by rw [hb]; exact accepted) (received_clean h)
  case openings =>
    refine exec_stationSet_refused (st := .badValue) h hb hl ((stationSet_act hn ok _).trans
      (stationSet_assigned_refused (s := received .control s) ha (itemsOf_isEmpty hl some_) ?_))
    rw [← Bool.not_eq_false, configRefused_assigned]
    rintro ⟨⟨low, high⟩, -⟩
    have low' : ((s.cfg i).carry (itemsOf rest)).vMin ≤ ((s.cfg i).carry (itemsOf rest)).startOpening := low
    have high' : ((s.cfg i).carry (itemsOf rest)).startOpening ≤ ((s.cfg i).carry (itemsOf rest)).vMax := high
    omega
  case stored =>
    have good : Undisturbed (received .control s) := received_undisturbed .control h.1.1
    obtain ⟨ws, assigned⟩ := stationSet_assigned (s := received .control s) ha (itemsOf_isEmpty hl some_)
      (configRefused_assigned.2 ⟨⟨hmin, hmax⟩, hk⟩)
    have answer := (stationSet_act hn ok (received .control s)).trans assigned
    rw [reconfigure_clean ws good] at answer
    generalize hc : ((received .control s).cfg i).carry (itemsOf rest) = c at answer
    have carried : (s.cfg i).carry (itemsOf rest) = c := hc
    have spec := reclamped (s := received .control s) (i := i) (c := c.clampManual)
      (full := carriesAll (itemsOf rest) stationCodes) _ rfl
    have table := applyTarget_table (setStored i c.clampManual (carriesAll (itemsOf rest) stationCodes) (received .control s))
      i ((received .control s).work i).target
    generalize hu : applyTarget plain i ((received .control s).work i).target
      (setStored i c.clampManual (carriesAll (itemsOf rest) stationCodes) (received .control s)) = u at answer spec table
    obtain ⟨damaged, count, faulted, quiet⟩ := spec
    have clean : u.memory.Clean := (PartChange.ofTable table).clean (s := setStored i c.clampManual _ (received .control s)) good.2
    have part := (PartChange.ofTable table).trans (evaluateTrip_part u noWords)
    have apart := (Apart.of_table table).trans (evaluateTrip_apart noWords u)
    rw [carried]
    exact ⟨_, exec_evaluated (row := stationSetRow) (onward := id) rfl rfl h (by rw [hb]; exact stationItems_length hl)
      (by rw [hb]; exact answer) clean, (part.cfg i).trans (setStored_cfg ..), answeredWith_answered _ _ _, damaged, count,
      part.kept.2.2.2.1, apart.measure, apart.balancer, apart.link, part.memory, part.silent.2.2.2, part.elapsed,
      fun j hj => (part.cfg j).trans (setStored_cfg_other hj), faulted, quiet⟩

end Reclamp

end Sys2Proof.Proofs
end

section
/-! BANK SET and TRIP SET (R97, R160, R175, R177, R183, R216): what they store, and what a carried item brings about. -/

namespace Sys2Proof.Proofs

open Sys2Proof Sys2Proof.Machine Sys2Proof.Laws

/-! ### Storing items (R216) -/

section Items

variable {items : List Item} {b : BankSettings} {code v : Nat}

theorem roleCode_ofCode (h : v ≤ 2) : (LinkRole.ofCode v).code = v := by
  match v, h with
  | 0, _ => rfl
  | 1, _ => rfl
  | 2, _ => rfl

theorem bankRange_unknown (h : ¬ (1 ≤ code ∧ code ≤ 33)) : bankRange code = (1, 0) := by
  unfold bankRange
  split
  case h_34 => rfl
  all_goals omega

theorem bankItem_known (h : bankItemOk code v = true) : 1 ≤ code ∧ code ≤ 33 := by
  by_contra other
  have range := bankRange_unknown other
  have inside := (Bool.and_eq_true_iff.1 h).1
  rw [range] at inside
  simp only [Bool.and_eq_true, decide_eq_true_eq] at inside
  omega

/-- A stored item stands under its code. -/
theorem storedItem_same (h : bankItemOk code v = true) : (b.store code v).item code = v := by
  have role : code = 31 → v ≤ 2 := by
    rintro rfl
    simp only [bankItemOk, bankRange, Bool.and_eq_true, decide_eq_true_eq] at h
    exact h.1.2
  have known := bankItem_known h
  unfold BankSettings.store
  split
  case h_31 => exact roleCode_ofCode (role rfl)
  case h_34 => grind
  all_goals rfl

/-- And every other item as it stood. -/
theorem storedItem_other {other : Nat} (h : other ≠ code) : (b.store code v).item other = b.item other := by
  unfold BankSettings.store
  split
  case h_34 => rfl
  all_goals
    unfold BankSettings.item
    split
    all_goals first | rfl | exact absurd rfl h

theorem carriedItem_other (h : code ∉ codesOf items) : (b.carry items).item code = b.item code := by
  induction items generalizing b with
  | nil => rfl
  | cons it rest ih =>
    obtain ⟨other, later⟩ := not_or.1 fun e => h (List.mem_cons.2 e)
    exact (ih (b := b.store it.code it.value) later).trans (storedItem_other other)

theorem carriedItem_same (ok : itemsOk bankItemOk items = true) (it : Item) (h : it ∈ items) :
    (b.carry items).item it.code = it.value := by
  induction items generalizing b with
  | nil => simp at h
  | cons first rest ih =>
    simp only [itemsOk, List.all_cons, Bool.and_eq_true, decide_eq_true_eq] at ok
    obtain ⟨⟨stands, each⟩, distinct⟩ := ok
    obtain ⟨new, distinct⟩ := List.nodup_cons.1 (show (first.code :: codesOf rest).Nodup from distinct)
    have carried : b.carry (first :: rest) = (b.store first.code first.value).carry rest := rfl
    rw [carried]
    rcases List.mem_cons.1 h with rfl | later
    · rw [carriedItem_other new]
      exact storedItem_same stands
    · exact ih (by simp only [itemsOk, each, distinct, decide_true, Bool.and_self]) later

end Items

/-! ### What a carried item brings about (R127, R138, R160, R183) -/

section Follow

variable {s : State} {old : BankSettings}

theorem ensureRoundTimer_part (s : State) : PartChange s (ensureRoundTimer plainly s) :=
  .ite (fun _ => .refl s) fun _ => startRoundTimer_part s

theorem ensureRoundTimer_clean (h : s.memory.Clean) : ensureRoundTimer checked s = ensureRoundTimer plainly s := by
  rw [ensureRoundTimer, checked_clean _ _ h]
  rfl

/-- The link as it stands behind the hold, and MARK released by a MASTER (R183). -/
def roleLeft (old : LinkRole) (s : State) : State :=
  if old = .master then releaseMark (endHold plainly s) else endHold plainly s

theorem roleLeft_part (old : LinkRole) (s : State) : PartChange s (roleLeft old s) :=
  .ite (fun _ => (endHold_part s).trans (releaseMark_part _)) fun _ => endHold_part s

theorem withLink_part (s : State) (l : Link) : PartChange s { s with link := l } := ⟨rfl, fun _ => rfl⟩

theorem changeRole_part (old : LinkRole) (s : State) : PartChange s (changeRole plainly old s) := by
  have left := roleLeft_part old s
  unfold changeRole
  dsimp only
  unfold roleLeft at left
  generalize (if old = LinkRole.master then releaseMark (endHold plainly s) else endHold plainly s) = u at left
  have unslaved : PartChange s (ensureRoundTimer plainly { u with link := u.link.leaveSlave }) :=
    left.trans ((withLink_part u _).trans (ensureRoundTimer_part _))
  split
  · exact left.trans ⟨rfl, fun _ => rfl⟩
  · exact unslaved
  · exact unslaved.trans (.ite (fun _ => beginLead_part _) fun _ => .refl _)

theorem changeRole_clean (old : LinkRole) (h : s.memory.Clean) : changeRole checked old s = changeRole plainly old s := by
  have left : (roleLeft old s).memory.Clean := (roleLeft_part old s).clean h
  unfold changeRole
  rw [endHold_clean h]
  dsimp only
  unfold roleLeft at left
  generalize (if old = LinkRole.master then releaseMark (endHold plainly s) else endHold plainly s) = u at left
  rw [ensureRoundTimer_clean (s := { u with link := u.link.leaveSlave }) left]

theorem restartRoundTimer_clean (role : LinkRole) (h : s.memory.Clean) :
    restartRoundTimer checked role s = restartRoundTimer plainly role s := by
  unfold restartRoundTimer
  dsimp only
  rw [checked_clean _ _ h, nothing_eq, takeRound_clean (s := releaseMark s) h]
  rfl

theorem followRole_part (old : LinkRole) (s : State) : PartChange s (followRole plainly old s) :=
  .ite (fun _ => .refl s) fun _ => changeRole_part old s

theorem followItem_part (old : BankSettings) (s : State) (code : Nat) : PartChange s (followItem plainly old s code) := by
  unfold followItem
  split
  · exact .ofTable (grantTest_table s)
  · exact .ofTable (grantTest_table s)
  · exact .ofTable (timeoutDue_table s)
  · exact restartRoundTimer_part s old.role
  · exact followRole_part old.role s
  · exact .refl s

theorem followItem_clean (old : BankSettings) (code : Nat) (h : s.memory.Clean) :
    followItem checked old s code = followItem plainly old s code := by
  unfold followItem
  split
  · exact checked_clean _ _ h
  · exact checked_clean _ _ h
  · exact checked_clean _ _ h
  · exact restartRoundTimer_clean _ h
  · rw [followRole, changeRole_clean _ h, followRole]
  · rfl

/-- The effects of a list of items. -/
def followItems (old : BankSettings) (codes : List Nat) (s : State) : State := codes.foldl (followItem plainly old) s

theorem followItems_part (old : BankSettings) (codes : List Nat) (s : State) : PartChange s (followItems old codes s) :=
  .foldl (fun t code => followItem_part old t code) codes s

theorem followItems_clean (old : BankSettings) (codes : List Nat) (h : s.memory.Clean) :
    codes.foldl (followItem checked old) s = followItems old codes s := by
  induction codes generalizing s with
  | nil => rfl
  | cons code rest ih =>
    rw [List.foldl_cons, followItem_clean old code h, ih ((followItem_part old s code).clean h)]
    rfl

theorem followItem_roundTimer {code : Nat} (h : code ≠ 30 ∧ code ≠ 31) (s : State) :
    (followItem plainly old s code).bank = s.bank := by
  unfold followItem
  split
  · exact (grantTest_table s).bank
  · exact (grantTest_table s).bank
  · exact (timeoutDue_table s).bank
  · exact absurd rfl h.1
  · exact absurd rfl h.2
  · rfl

theorem followItems_roundTimer {codes : List Nat} (h : 30 ∉ codes) (h' : 31 ∉ codes) (s : State) :
    (followItems old codes s).bank = s.bank := by
  induction codes generalizing s with
  | nil => rfl
  | cons code rest ih =>
    obtain ⟨first, later⟩ := not_or.1 fun e => h (List.mem_cons.2 e)
    obtain ⟨first', later'⟩ := not_or.1 fun e => h' (List.mem_cons.2 e)
    exact (ih later later' _).trans (followItem_roundTimer ⟨Ne.symm first, Ne.symm first'⟩ s)

/-- A running round timer is restarted one balance period on (R160). -/
theorem restartRoundTimer_expiry (role : LinkRole) (h : s.bank.roundTimer.isSome = true) :
    (restartRoundTimer plainly role s).bank.roundTimer = expiryAfter s s.settings.bank.balancePeriod := by
  have started (t : State) (ht : PartChange s t) :
      (startRoundTimer t).bank.roundTimer = expiryAfter s s.settings.bank.balancePeriod := by
    show expiryAfter t t.settings.bank.balancePeriod = _
    rw [ht.kept.2.2.2.1, expiryAfter, bankClock, ht.elapsed]
    rfl
  unfold restartRoundTimer
  rw [if_pos h]
  dsimp only
  split
  · exact started _ ((releaseMark_part s).trans (takeRound_part _))
  · exact started _ (.refl s)

theorem expiryAfter_in_range {n : Nat} (h : bankClock s + n ≤ 4294967295) : expiryAfter s n = some (bankClock s + n) :=
  if_pos h

/-- The codes that a BANK SET follows, in their order. -/
theorem followItems_restarts {items : List Item} (h : 30 ∈ codesOf items) (h' : 31 ∉ codesOf items)
    (ht : s.bank.roundTimer.isSome = true) :
    (followItems old (bankCodes.filter (carries items)) s).bank.roundTimer =
      expiryAfter s s.settings.bank.balancePeriod := by
  have order : bankCodes = (List.range 29).map (· + 1) ++ 30 :: [31, 32, 33] := rfl
  have carried : carries items 30 = true := List.contains_iff_mem.2 h
  have absent : carries items 31 = false := by
    rw [← Bool.not_eq_true, carries, List.contains_iff_mem]
    exact h'
  rw [order, List.filter_append, List.filter_cons_of_pos carried, followItems, List.foldl_append, List.foldl_cons]
  generalize hu : ((List.range 29).map (· + 1)).filter (carries items) = before
  have first : 30 ∉ before ∧ 31 ∉ before := by
    rw [← hu]
    constructor <;> exact fun e => absurd (List.mem_filter.1 e).1 (by decide)
  have later : 30 ∉ [31, 32, 33].filter (carries items) ∧ 31 ∉ [31, 32, 33].filter (carries items) :=
    ⟨fun e => absurd (List.mem_filter.1 e).1 (by decide), fun e => by simp [absent] at e⟩
  have stands := followItems_roundTimer (old := old) first.1 first.2 s
  have part := followItems_part old before s
  have rest := followItems_roundTimer (old := old) later.1 later.2
    (followItem plainly old (before.foldl (followItem plainly old) s) 30)
  rw [followItems] at rest stands part
  rw [rest, followItem, restartRoundTimer_expiry _ (by rw [stands]; exact ht), part.kept.2.2.2.1, expiryAfter, bankClock,
    part.elapsed]
  rfl

end Follow

/-! ### BANK SET -/

section BankSet

variable {r : Request} {s : State} {items : List Item}

/-- The settings as an accepted BANK SET stores them. -/
def bankStored (items : List Item) (s : State) : State :=
  { s with settings := { s.settings with bank := s.settings.bank.carry items } }

theorem storeBank_clean (h : Undisturbed s) : storeBank items s = bankStored items s := by
  have good : Undisturbed (bankStored items s) := h
  exact rewriteWords_clean _ good

theorem followBank_clean (old : BankSettings) (h : s.memory.Clean) :
    followBank items old s = followItems old (bankCodes.filter (carries items)) s := followItems_clean old _ h

theorem exec_bankSet_refused {st : Status} (h : TakenControl r s) (hl : r.body.length % 3 = 0)
    (ha : bankSetRow.act plain .control r.body (received .control s) = refuse st (received .control s)) :
    exec (.bankSet r) s = .next (replied .control 0x16 [st.code] none s) :=
  exec_refused (row := bankSetRow) rfl rfl h (by exact decide_eq_true hl) ha

theorem roleRefused_iff : roleRefused items s = true ↔
    (s.settings.bank.carry items).role ≠ s.settings.bank.role ∧ s.bank.mode ≠ .idle := by
  simp [roleRefused]

theorem bankSet_crossed (h : bankCrossOk (codesOf items) (s.settings.bank.carry items) = false) :
    bankSet items s = refuse .badValue s := if_pos (by rw [h]; rfl)

theorem bankSet_roleRefused (h : bankCrossOk (codesOf items) (s.settings.bank.carry items) = true)
    (hr : roleRefused items s = true) : bankSet items s = refuse .wrongMode s := by
  rw [bankSet, if_neg (by rw [h]; simp), if_pos hr]

theorem bankSet_empty (h : bankCrossOk (codesOf items) (s.settings.bank.carry items) = true)
    (hr : ¬ roleRefused items s = true) (he : items.isEmpty = true) : bankSet items s = accept s := by
  rw [bankSet, if_neg (by rw [h]; simp), if_neg hr, if_pos he]

theorem bankSet_accepted (h : bankCrossOk (codesOf items) (s.settings.bank.carry items) = true)
    (hr : ¬ roleRefused items s = true) (he : items.isEmpty = false) :
    bankSet items s = ⟨storeBank items s, .ok, [], none, followBank items s.settings.bank, true⟩ := by
  rw [bankSet, if_neg (by rw [h]; simp), if_neg hr, if_neg (by simp [he])]
  rfl

/-- Behind the store each carried item takes its effect, and the trip function is evaluated. -/
theorem exec_bankSet_accepted (h : TakenControl r s) (hl : r.body.length % 3 = 0)
    (ok : itemsOk bankItemOk (itemsOf r.body) = true)
    (cross : bankCrossOk (codesOf (itemsOf r.body)) (s.settings.bank.carry (itemsOf r.body)) = true)
    (hr : ¬ roleRefused (itemsOf r.body) s = true) (he : (itemsOf r.body).isEmpty = false) :
    exec (.bankSet r) s = .next (answeredWith 0x16 .ok (evaluateTrip plainly noWords
      (followItems s.settings.bank (bankCodes.filter (carries (itemsOf r.body)))
        (bankStored (itemsOf r.body) (received .control s))))) := by
  have good : Undisturbed (received .control s) := received_undisturbed .control h.1.1
  have stored : (bankStored (itemsOf r.body) (received .control s)).memory.Clean := good.2
  have answer : bankSetRow.act plain .control r.body (received .control s) =
      ⟨bankStored (itemsOf r.body) (received .control s), .ok, [], none,
        followBank (itemsOf r.body) s.settings.bank, true⟩ := by
    refine (if_pos ok).trans ((bankSet_accepted (s := received .control s) cross hr he).trans ?_)
    rw [storeBank_clean good]
    rfl
  have onward := followBank_clean (items := itemsOf r.body) s.settings.bank stored
  rw [← onward]
  refine exec_evaluated (row := bankSetRow) rfl rfl h (by exact decide_eq_true hl) answer ?_
  rw [onward]
  exact (followItems_part _ _ _).clean stored

/-- Settles O37: behind the store each carried item takes its effect, and the round timer's is the last but the role's. -/
theorem bankSetStores : Obligations.BankSetStores := by
  unfold Obligations.BankSetStores
  refine fun r s h hl => ⟨fun bad => ?bad, fun ok cross => ⟨fun hrole hmode => ?role, fun hrole => ?stored⟩⟩
  case bad =>
    refine exec_bankSet_refused (st := .badValue) h hl ?_
    dsimp only [bankSetRow]
    split
    case isTrue ok => exact bankSet_crossed (s := received .control s) (bad.resolve_left (by simp [ok]))
    case isFalse => rfl
  case role =>
    exact exec_bankSet_refused (st := .wrongMode) h hl ((if_pos ok).trans
      (bankSet_roleRefused (s := received .control s) cross (roleRefused_iff.2 ⟨hrole, hmode⟩)))
  case stored =>
    have allowed : ¬ roleRefused (itemsOf r.body) s = true := by
      rw [roleRefused_iff]
      rintro ⟨changed, running⟩
      exact hrole.elim (fun e => changed e) fun e => running e
    have same := fun it hit => carriedItem_same (b := s.settings.bank) ok it hit
    have others := fun code (hc : code ∉ codesOf (itemsOf r.body)) => carriedItem_other (b := s.settings.bank) hc
    cases hempty : (itemsOf r.body).isEmpty with
    | true =>
      have none_ := List.isEmpty_iff.1 hempty
      refine ⟨_, exec_stored (row := bankSetRow) (onward := id) rfl rfl h (by exact decide_eq_true hl)
        ((if_pos ok).trans (bankSet_empty (s := received .control s) cross allowed hempty)) (received_clean h),
        answeredWith_answered _ _ _, ?_, ?_, fun _ _ => rfl, fun _ => rfl, rfl, rfl, ?_⟩
      · rw [none_]
        rfl
      · rw [none_]
        simp
      · rw [none_]
        simp [codesOf]
    | false =>
      have part := (followItems_part s.settings.bank (bankCodes.filter (carries (itemsOf r.body)))
        (bankStored (itemsOf r.body) (received .control s))).trans (evaluateTrip_part _ noWords)
      have settings : (evaluateTrip plainly noWords (followItems s.settings.bank (bankCodes.filter (carries (itemsOf r.body)))
          (bankStored (itemsOf r.body) (received .control s)))).settings =
          { s.settings with bank := s.settings.bank.carry (itemsOf r.body) } := part.kept.2.2.2.1
      refine ⟨_, exec_bankSet_accepted h hl ok cross allowed hempty, answeredWith_answered _ _ _, settings,
        fun it hit => ?_, fun code hc => ?_, part.cfg, part.memory, part.elapsed, fun h30 h31 running range => ?_⟩
      · exact (congrArg (fun x : Settings => x.bank.item it.code) settings).trans (same it hit)
      · exact (congrArg (fun x : Settings => x.bank.item code) settings).trans (others code hc)
      · refine (evaluateTrip_apart noWords _).roundTimer.trans ((followItems_restarts (s := bankStored (itemsOf r.body)
          (received .control s)) h30 h31 running).trans ?_)
        exact expiryAfter_in_range (s := bankStored (itemsOf r.body) (received .control s)) range

end BankSet

/-! ### TRIP SET (R175) -/

section TripSet

variable {r : Request} {s : State} {items : List Item}

/-- The settings as an accepted TRIP SET stores them. -/
def tripStored (items : List Item) (s : State) : State :=
  { s with settings := { s.settings with trip := s.settings.trip.carry items } }

theorem storeTrip_clean (h : Undisturbed s) : storeTrip items s = tripStored items s := by
  have good : Undisturbed (tripStored items s) := h
  exact rewriteWords_clean _ good

theorem evaluateAfresh_clean (h : s.memory.Clean) :
    evaluateAfresh s = evaluateTrip plainly (fun _ => [404, 405]) (restartPersistence s) :=
  evaluateTrip_clean _ (s := restartPersistence s) h

theorem exec_tripSet_pulse (h : TakenControl r s) (hl : r.body.length % 3 = 0)
    (ok : itemsOk tripItemOk (itemsOf r.body) = true) (alone : ∀ it ∈ itemsOf r.body, it.code = 9) :
    exec (.tripSet r) s = .next (answeredWith 0x17 .ok (tripStored (itemsOf r.body) (received .control s))) := by
  have good : Undisturbed (received .control s) := received_undisturbed .control h.1.1
  have single : ¬ (itemsOf r.body).any (fun it => it.code ≠ 9) = true := by simpa using alone
  have answer : tripSetRow.act plain .control r.body (received .control s) =
      accept (tripStored (itemsOf r.body) (received .control s)) := by
    refine (if_pos ok).trans ((if_neg single).trans ?_)
    rw [storeTrip_clean good]
  exact exec_stored (row := tripSetRow) (onward := id) rfl rfl h (by exact decide_eq_true hl) answer good.2

theorem exec_tripSet_afresh (h : TakenControl r s) (hl : r.body.length % 3 = 0)
    (ok : itemsOk tripItemOk (itemsOf r.body) = true) (other : ∃ it ∈ itemsOf r.body, it.code ≠ 9) :
    exec (.tripSet r) s = .next (answeredWith 0x17 .ok (evaluateTrip plainly (fun _ => [404, 405])
      (restartPersistence (tripStored (itemsOf r.body) (received .control s))))) := by
  have good : Undisturbed (received .control s) := received_undisturbed .control h.1.1
  have several : (itemsOf r.body).any (fun it => it.code ≠ 9) = true := by simpa using other
  have answer : tripSetRow.act plain .control r.body (received .control s) =
      ⟨tripStored (itemsOf r.body) (received .control s), .ok, [], none, evaluateAfresh, false⟩ := by
    refine (if_pos ok).trans ((if_pos several).trans ?_)
    rw [storeTrip_clean good]
    rfl
  have afresh : evaluateAfresh (tripStored (itemsOf r.body) (received .control s)) = _ := evaluateAfresh_clean good.2
  rw [← afresh]
  refine exec_stored (row := tripSetRow) rfl rfl h (by exact decide_eq_true hl) answer ?_
  rw [afresh]
  exact (evaluateTrip_part _ _).clean (s := restartPersistence (tripStored (itemsOf r.body) (received .control s))) good.2

/-- Settles O38. -/
theorem tripSetEvaluates : Obligations.TripSetEvaluates := by
  unfold Obligations.TripSetEvaluates
  refine fun r s h hl => ⟨fun bad => ?bad, fun ok alone => exec_tripSet_pulse h hl ok alone, fun ok other => ?afresh⟩
  case bad =>
    exact exec_refused (row := tripSetRow) (st := .badValue) rfl rfl h (by exact decide_eq_true hl)
      (if_neg (by rw [bad]; simp))
  case afresh =>
    have part := evaluateTrip_part (restartPersistence (tripStored (itemsOf r.body) (received .control s)))
      fun _ => [404, 405]
    have apart := evaluateTrip_apart (fun _ => [404, 405])
      (restartPersistence (tripStored (itemsOf r.body) (received .control s)))
    have evaluated := evaluateTrip_evaluated (fun _ => [404, 405])
      (restartPersistence (tripStored (itemsOf r.body) (received .control s)))
    exact ⟨_, exec_tripSet_afresh h hl ok other, answeredWith_answered _ _ _, part.kept.2.2.2.1, part.memory, apart.measure,
      apart.balancer, part.silent.2.2.2, part.elapsed, part.cfg, evaluated⟩

end TripSet

end Sys2Proof.Proofs
end

section
/-! The requests of the event unit, INTEGRITY CLEAR, RESTART, and what a cold restart and a loss of power leave (chapters 7, 9
and 10). -/

namespace Sys2Proof.Proofs

open Sys2Proof Sys2Proof.Machine Sys2Proof.Laws

/-! ### The event unit under changed settings and cleared flags (R200 to R204) -/

section Events

variable {u : EventUnit} {old new : NoticeSettings}

/-- An operation on the notices and the blink drop alone. -/
def NoticesAlone (u v : EventUnit) : Prop :=
  v.queue = u.queue ∧ v.flags = u.flags ∧ v.overflow = u.overflow ∧ v.backlog = u.backlog

theorem noticesDue_alone (owed : Category → Bool) (cs : List Category) (v : EventUnit) :
    NoticesAlone v (cs.foldl (fun v c => if owed c then v.noticeDue new c else v) v) := by
  refine List.foldlRecOn (motive := NoticesAlone v) cs _ ⟨rfl, rfl, rfl, rfl⟩ fun x h c _ => ?_
  split
  · exact h
  · exact h

theorem follow_alone (old new : NoticeSettings) (u : EventUnit) : NoticesAlone u (u.follow old new) := by
  dsimp only [EventUnit.follow]
  split
  · exact noticesDue_alone _ allCategories _
  · exact ⟨rfl, rfl, rfl, rfl⟩

/-- Outside FRAMES no notice stays pending (R204). -/
theorem follow_notices (h : new.mode ≠ .frames) : (u.follow old new).notices = [] := by
  dsimp only [EventUnit.follow]
  rw [if_neg (by simp [h])]
  exact if_neg h

end Events

/-! ### NOTICE SET, CLEAR NOTICE and CAST SET -/

section NoticeRequests

variable {r : Request} {s : State} {items : List Item}

/-- The part as an accepted NOTICE SET leaves it. -/
def noticeStored (items : List Item) (s : State) : State :=
  { s with
    settings := { s.settings with notice := s.settings.notice.carry items }
    events := s.events.follow s.settings.notice (s.settings.notice.carry items) }

theorem storeNotice_clean (h : Undisturbed s) : storeNotice items s = noticeStored items s := by
  have good : Undisturbed (noticeStored items s) := h
  exact rewriteWords_clean _ good

/-- The part as an accepted CAST SET leaves it. -/
def castStored (items : List Item) (s : State) : State :=
  { s with
    settings := { s.settings with cast := s.settings.cast.carry items }
    events := { s.events with drops := 0 } }

theorem storeCast_clean (h : Undisturbed s) : storeCast items s = castStored items s := by
  have good : Undisturbed (castStored items s) := h
  exact rewriteWords_clean _ good

theorem exec_noticeSet (h : TakenControl r s) (hl : r.body.length % 3 = 0)
    (ok : itemsOk noticeItemOk (itemsOf r.body) = true) :
    exec (.noticeSet r) s = .next (answeredWith 0x1A .ok (noticeStored (itemsOf r.body) (received .control s))) := by
  have good : Undisturbed (received .control s) := received_undisturbed .control h.1.1
  exact exec_stored (row := noticeSetRow) (onward := id) rfl rfl h (by exact decide_eq_true hl)
    ((if_pos ok).trans (by rw [storeNotice_clean good]; rfl)) good.2

theorem exec_castSet (h : TakenControl r s) (hl : r.body.length % 3 = 0)
    (ok : itemsOk castItemOk (itemsOf r.body) = true) :
    exec (.castSet r) s = .next (answeredWith 0x1C .ok (castStored (itemsOf r.body) (received .control s))) := by
  have good : Undisturbed (received .control s) := received_undisturbed .control h.1.1
  exact exec_stored (row := castSetRow) (onward := id) rfl rfl h (by exact decide_eq_true hl)
    ((if_pos ok).trans (by rw [storeCast_clean good]; rfl)) good.2

theorem exec_clearNotice {n : Byte} (h : TakenControl r s) (hb : r.body = [n]) (hn : n.toNat ≤ 15) :
    exec (.clearNotice r) s = .next (answeredWith 0x1B .ok (clearNotice n.toNat (received .control s))) := by
  have good : Undisturbed (received .control s) := received_undisturbed .control h.1.1
  exact exec_stored (row := clearNoticeRow) (onward := id) rfl rfl h (by rw [hb]; rfl)
    (by rw [hb]; exact if_pos hn) good.2

/-- Settles O42. -/
theorem noticeAndCastRequests : Obligations.NoticeAndCastRequests := by
  unfold Obligations.NoticeAndCastRequests
  refine fun r s h => ⟨fun hl ok => ?notice, fun hl bad => ?noticeBad, fun n hb hn => ?clear, fun n hb hn => ?clearBad,
    fun hl ok => exec_castSet h hl ok, fun hl bad => ?castBad⟩
  case notice =>
    obtain ⟨queue, flags, overflow, backlog⟩ :=
      follow_alone s.settings.notice (s.settings.notice.carry (itemsOf r.body)) s.events
    exact ⟨_, exec_noticeSet h hl ok, queue, flags, overflow, backlog, follow_notices⟩
  case noticeBad =>
    exact exec_refused (row := noticeSetRow) (st := .badValue) rfl rfl h (by exact decide_eq_true hl)
      (if_neg (by simp [bad]))
  case clear =>
    refine ⟨_, exec_clearNotice h hb hn, rfl, rfl, rfl, fun c => get_diff _ _ c, rfl⟩
  case clearBad =>
    exact exec_refused (row := clearNoticeRow) (st := .badValue) rfl rfl h (by rw [hb]; rfl)
      (by rw [hb]; exact if_neg (Nat.not_le.2 hn))
  case castBad =>
    exact exec_refused (row := castSetRow) (st := .badValue) rfl rfl h (by exact decide_eq_true hl)
      (if_neg (by simp [bad]))

end NoticeRequests

/-! ### INTEGRITY CLEAR and the write-back (R188, R194) -/

section IntegrityRequests

variable {r : Request} {s : State}

theorem exec_integrityClear (h : TakenControl r s) (hb : r.body = []) :
    exec (.integrityClear r) s =
      .next (answeredWith 0x1D .ok (evaluateTrip plainly noWords (integrityClear (received .control s)))) := by
  have clean : (integrityClear (received .control s)).memory.Clean := received_clean h
  have read : readMarks (integrityClear (received .control s)) = integrityClear (received .control s) :=
    checked_clean _ _ clean
  have ran := exec_evaluated (row := integrityClearRow) (c := .integrityClear r) (s := s) (st := .ok)
    (t := integrityClear (received .control s)) (onward := readMarks) rfl rfl h (by rw [hb]; rfl) rfl (by rw [read]; exact clean)
  rwa [read] at ran

/-- A pending write-back writes its word with fresh check bits. -/
theorem exec_writeBack {w : WordIx} (hp : s.powered = true) (h : w.val ∈ s.memory.writeBacks) :
    exec (.writeBack w) s = .next { s with memory := s.memory.rewrite w.val } := by
  refine (perform_powered (writeBack w) hp).trans ?_
  rw [writeBack, if_pos (by simpa using h)]
  rfl

theorem exec_writeBack_dropped {w : WordIx} (hp : s.powered = true) (h : w.val ∉ s.memory.writeBacks) :
    exec (.writeBack w) s = .next s := by
  refine (perform_powered (writeBack w) hp).trans ?_
  rw [writeBack, if_neg (by simpa using h)]

/-- Settles O43. -/
theorem integrityClearAndWriteBack : Obligations.IntegrityClearAndWriteBack := by
  unfold Obligations.IntegrityClearAndWriteBack
  refine ⟨fun r s h hb => ?_, fun w s hp => ⟨fun hw => ?_, fun hw => exec_writeBack_dropped hp hw⟩⟩
  · have part := evaluateTrip_part (integrityClear (received .control s)) noWords
    exact ⟨_, exec_integrityClear h hb, answeredWith_answered _ _ _, part.memory, part.kept.2.2.2.1, part.silent.2.2.2,
      part.elapsed, part.cfg, evaluateTrip_damaged noWords (integrityClear (received .control s)),
      evaluateTrip_evaluated noWords (integrityClear (received .control s))⟩
  · exact ⟨_, exec_writeBack hp hw, fun wf => (rewrite_good w.val wf).1, by simp [Memory.rewrite], rfl,
      fun v hv => rewrite_other s.memory hv⟩

end IntegrityRequests

/-! ### Restarts (R161 to R163) -/

section Restarts

variable {r : Request} {s : State}

theorem warm_wrongBits (m : Memory) (code : Nat) : (m.warm code).wrongBits = (allWorkWords.foldl Memory.rewrite m).wrongBits := by
  simp only [Memory.warm]

theorem warm_clean (h : Undisturbed s) : (warmRestartBare s).memory.Clean := by
  have words : (rewriteWords allWorkWords s).memory = s.memory := by rw [rewriteWords_clean _ h]
  exact ⟨(warm_wrongBits _ _).trans ((congrArg Memory.wrongBits words).trans h.2.1), rfl⟩

theorem beginScrub_warm (s : State) : beginScrub (warmRestartBare s) = warmRestartBare s := by
  simp only [beginScrub, warmRestartBare, Memory.warm]

/-- On a part with nothing to find a warm restart leaves the part bare and evaluates the trip function. -/
theorem warmRestart_clean (h : Undisturbed s) : warmRestart s = evaluateTrip plainly noWords (warmRestartBare s) := by
  have clean : (warmRestartBare s).memory.Clean := warm_clean h
  have evaluated : checked (fun _ => [403, 404, 405, 406, 407]) (fun a t => evaluateOutput a (beginScrub t))
      (warmRestartBare s) = checked noWords evaluateOutput (warmRestartBare s) := by
    rw [checked_clean _ _ clean, checked_clean _ _ clean, beginScrub_warm]
  rw [← evaluateTrip_clean noWords clean]
  exact (judgeFound_clean _ clean.1).trans (by rw [evaluated]; rfl)

/-- A RESTART that its port takes is held with the restart it asks for. -/
theorem exec_restart {c : Instr} {k : RestartKind} {n : Byte} (hc : requestOf c = some (restartRow k, r))
    (h : TakenControl r s) (hb : r.body = [n]) (hn : n.toNat = k.code) :
    exec c s = .next (replied .control 0x1E [0x00] (some k) s) := by
  obtain ⟨taken, hp⟩ := h
  rw [exec_of_request hc, performRequest_unchanged (c := .ok) (contents := []) (k := some k) taken (.inr hp) (by rw [hb]; rfl)
    (by rw [hb]; exact if_pos hn), hp]
  rfl

theorem exec_restart_refused {c : Instr} {k : RestartKind} {n : Byte} (hc : requestOf c = some (restartRow k, r))
    (h : TakenControl r s) (hb : r.body = [n]) (hn : n.toNat ≠ k.code) :
    exec c s = .next (replied .control 0x1E [0x12] none s) :=
  exec_refused (row := restartRow k) (st := .badValue) hc rfl h (by rw [hb]; rfl) (by rw [hb]; exact if_neg hn)

/-- A broadcast one takes effect at once. -/
theorem exec_restart_broadcast {c : Instr} {k : RestartKind} {n : Byte} (hc : requestOf c = some (restartRow k, r))
    (hs : Undisturbed s) (ha : r.address = broadcast) (hp : r.port = .control) (hb : r.body = [n])
    (hn : n.toNat = k.code) : exec c s = .next (restartAs (some k) (received .control s)) := by
  have good : Undisturbed (received r.port s) := received_undisturbed r.port hs
  have answered : answerTo (restartRow k) r (received r.port s) =
      { accept (received r.port s) with restart := some k } := by
    have act : (restartRow k).act plain r.port r.body (received r.port s) =
        { accept (received r.port s) with restart := some k } := by
      rw [hb]
      exact if_pos hn
    rw [answerTo_owner (row := restartRow k) hs (.inr hp) (by rw [hb]; rfl), act]
    exact settled_clean _ good.2 good.2
  rw [exec_of_request hc, performRequest, perform_powered _ hs.1, takeRequest, taking_broadcast ha]
  dsimp only
  rw [answered, ← hp]
  rfl

theorem restartCode_ne {n : Byte} (k : RestartKind) (h1 : n ≠ 1) (h2 : n ≠ 2) : n.toNat ≠ k.code := by
  cases k
  · exact fun e => h1 (BitVec.eq_of_toNat_eq e)
  · exact fun e => h2 (BitVec.eq_of_toNat_eq e)

/-- Settles O45. -/
theorem restartRequests : Obligations.RestartRequests := by
  unfold Obligations.RestartRequests
  refine fun r s => ⟨fun h hb => exec_restart rfl h hb rfl, fun h hb => exec_restart rfl h hb rfl,
    fun n h hb h1 h2 => ⟨exec_restart_refused rfl h hb (restartCode_ne .cold h1 h2),
      exec_restart_refused rfl h hb (restartCode_ne .warm h1 h2)⟩,
    fun hs ha hp => ⟨fun hb => ?cold, fun hb => ?warm⟩⟩
  case cold =>
    exact ⟨_, exec_restart_broadcast (c := .restartCold r) rfl hs ha hp hb rfl, rfl, rfl, rfl, rfl⟩
  case warm =>
    have good : Undisturbed (received .control s) := received_undisturbed .control hs
    have part := evaluateTrip_part (warmRestartBare (received .control s)) noWords
    have settings : (evaluateTrip plainly noWords (warmRestartBare (received .control s))).settings = s.settings :=
      part.kept.2.2.2.1
    have ran : exec (.restartWarm r) s = .next (evaluateTrip plainly noWords (warmRestartBare (received .control s))) := by
      rw [← warmRestart_clean good]
      exact exec_restart_broadcast (k := .warm) rfl hs ha hp hb rfl
    exact ⟨_, ran, part.elapsed, settings, part.silent.2.1⟩

theorem cold_station (p : Pins) (q : List Instr) (i : StationIx) : (State.cold p q).station i = Station.cold := by
  simp [State.cold, State.station]

/-- Settles O46. -/
theorem coldRestartAndPowerLoss : Obligations.ColdRestartAndPowerLoss := by
  unfold Obligations.ColdRestartAndPowerLoss
  exact fun s => ⟨⟨_, rfl, rfl, rfl, by simp [bankClock, coldRestart, State.cold], rfl, fun _ => rfl, rfl,
    rfl, rfl, rfl, rfl, fun i => cold_station _ _ i, rfl, rfl, rfl, rfl, rfl, rfl, rfl, rfl⟩, ⟨_, rfl, rfl, rfl, fun _ => rfl, rfl, rfl, rfl, rfl, rfl, rfl⟩⟩

end Restarts

end Sys2Proof.Proofs
end

section
/-! The field levels, the small timers and the timers of the bank link (R31, R166, R168, R172, R178, R181, R202). -/

namespace Sys2Proof.Proofs

open Sys2Proof Sys2Proof.Machine Sys2Proof.Laws

/-! ### A change of a field level (R166 to R168) -/

section Contacts

variable {s : State} {p : Pins} {c : Instr}

theorem fieldChange_clean (h : Undisturbed s) :
    fieldChange p s = .next (evaluateTrip plainly noWords { s with pins := p }) := by
  rw [fieldChange, perform_powered _ (s := { s with pins := p }) h.1, judge_clean _ (after := { s with pins := p }) h.2]

/-- Settles O49. -/
theorem contactsEvaluate : Obligations.ContactsEvaluate := by
  unfold Obligations.ContactsEvaluate
  intro s b c p h hc
  have ran : exec c s = fieldChange p s := by
    rcases hc with ⟨rfl, rfl⟩ | ⟨rfl, rfl⟩ | ⟨rfl, rfl⟩ <;> rfl
  have part := evaluateTrip_part { s with pins := p } noWords
  have apart := evaluateTrip_apart noWords { s with pins := p }
  exact ⟨_, ran.trans (fieldChange_clean h), part.silent.2.2.2, evaluateTrip_evaluated noWords { s with pins := p },
    part.kept, part.elapsed, apart.measure, apart.balancer, apart.link⟩

end Contacts

/-! ### Small timers (R31, R172, R202) -/

section SmallTimers

variable {s : State} {i : StationIx} {e : Nat}

theorem exec_settleExpiry (h : Undisturbed s) (he : (s.work i).settleExpiry = some e) :
    exec (.settleExpiry i) s = .next (settleReached plain i (passUntil (instantOf e) s)) := by
  have good : (passUntil (instantOf e) s).memory.Clean := h.2
  refine (perform_powered (reachSettle i) h.1).trans (congrArg Host.Outcome.next ?_)
  unfold reachSettle
  rw [he]
  refine (carryOut_clean _ _ good).trans (if_pos ?_)
  exact Option.isSome_iff_exists.2 ⟨e, he⟩

/-- The state behind the removal of a settle expiry. -/
def unsettled (i : StationIx) (s : State) : State := s.setWork i { s.work i with settleExpiry := none }

theorem settleReached_eq (i : StationIx) (s : State) :
    settleReached plain i s = if sampleable s i then addDemand plain i (unsettled i s) else unsettled i s := by
  have same : sampleable (unsettled i s) i = sampleable s i := by
    have kept : ((unsettled i s).work i).state = (s.work i).state := by rw [unsettled, setWork_work_same]
    unfold sampleable
    rw [kept]
    rfl
  rw [settleReached_plain, ← same]
  rfl

/-- Only the station's own record and the sampler are touched. -/
theorem settleReached_only (i : StationIx) (s : State) :
    settleReached plain i s = { unsettled i s with sampler := (settleReached plain i s).sampler } := by
  rw [settleReached_eq]
  split
  · exact addDemand_samplerOnly i (unsettled i s)
  · rfl

theorem settleReached_listed (hs : sampleable s i = true) (room : s.sampler.demand.length < 6)
    (busy : s.sampler.phase ≠ .idle) : i ∈ (settleReached plain i s).sampler.demand := by
  rw [settleReached_eq, if_pos hs]
  by_cases hi : i ∈ s.sampler.demand
  · have listed : addDemand plain i (unsettled i s) = unsettled i s := if_pos hi
    rw [listed]
    exact hi
  · rw [addDemand_joins (s := unsettled i s) hi room, select_of_not_free (.inl (by exact busy))]
    simp

/-- Settles O57. -/
theorem smallTimers : Obligations.SmallTimers := by
  unfold Obligations.SmallTimers
  refine fun s h => ⟨fun i e he => ?settle, fun e he => ?pulse, fun e he => ?blink⟩
  case settle =>
    have table := settleReached_table (passUntil (instantOf e) s) i
    have only := settleReached_only i (passUntil (instantOf e) s)
    refine ⟨_, exec_settleExpiry h he, ?_, table.elapsed, fun j hj => settleReached_work_other hj,
      (PartChange.ofTable table).silent, settleReached_drive i _, ?_,
      fun hs room busy => settleReached_listed (s := passUntil (instantOf e) s) hs room busy, fun hs => ?_⟩
    · rw [only]
      change ((unsettled i (passUntil (instantOf e) s)).work i).settleExpiry = none
      rw [unsettled, setWork_work_same]
    · rw [only]
      rfl
    · have unsampled : sampleable (passUntil (instantOf e) s) i = false := hs
      rw [settleReached_eq, unsampled]
      rfl
  case pulse =>
    refine (perform_powered endTripPulse h.1).trans (congrArg Host.Outcome.next ?_)
    unfold endTripPulse
    rw [he]
    rfl
  case blink =>
    refine (perform_powered endBlinkDrop h.1).trans (congrArg Host.Outcome.next ?_)
    unfold endBlinkDrop
    rw [he]
    rfl

end SmallTimers

/-! ### The end of a hold (R180) -/

section Hold

variable {s : State}

theorem plainly_keeps (P : State → Prop) : ReaderKeeps P plainly := fun _ _ _ keeps h => keeps _ h

theorem handParkedFlow_link (i : StationIx) (s : State) : (handParkedFlow i plain s).link = s.link := by
  unfold handParkedFlow
  split
  · exact (storeFlow_table ..).link
  · rfl

theorem handParkedFlow_balancer (i : StationIx) (s : State) : (handParkedFlow i plain s).balancer = s.balancer := by
  unfold handParkedFlow
  split
  · exact (storeFlow_table ..).balancer
  · rfl

theorem handParkedFlow_bank (i : StationIx) (s : State) : (handParkedFlow i plain s).bank = s.bank := by
  unfold handParkedFlow
  split
  · exact (storeFlow_table ..).bank
  · rfl

/-- What the parked flow records leave of the other blocks. -/
theorem handParkedFlows_apart (s : State) : (handParkedFlows plainly s).link = s.link ∧
    (handParkedFlows plainly s).balancer = s.balancer ∧ (handParkedFlows plainly s).bank = s.bank := by
  unfold handParkedFlows
  refine forStations_keeps (P := fun t => t.link = s.link ∧ t.balancer = s.balancer ∧ t.bank = s.bank)
    (fun i t ⟨hl, hb, hm⟩ => ?_) ⟨rfl, rfl, rfl⟩
  exact ⟨(handParkedFlow_link i t).trans hl, (handParkedFlow_balancer i t).trans hb, (handParkedFlow_bank i t).trans hm⟩

/-- The end of a hold ends it, and leaves the balancer and the round timer alone. -/
theorem endHold_apart (s : State) : (endHold plainly s).link = { s.link with hold := false } ∧
    (endHold plainly s).balancer = s.balancer ∧ (endHold plainly s).bank = s.bank := by
  unfold endHold
  split
  case isTrue =>
    obtain ⟨hl, hb, hm⟩ := handParkedFlows_apart (leaveHold s)
    have table := handParkedResult_table (handParkedFlows plainly (leaveHold s))
    exact ⟨table.link.trans hl, table.balancer.trans hb, table.bank.trans hm⟩
  case isFalse off =>
    have inactive : s.link.hold = false := by simpa using off
    exact ⟨by rw [← inactive], rfl, rfl⟩

/-- A parked result that is handed on leaves its slot empty (R78). -/
theorem handParkedResult_parked (s : State) : (handParkedResult plainly s).sampler.parked = none := by
  unfold handParkedResult
  split
  case h_1 r _ =>
    have steady := stands_steady { s.sampler with parked := none }
    exact (steady.selectNow (plainly_keeps _) (steady.fileResult (plainly_keeps _) r
      (s := { s with sampler := { s.sampler with parked := none } }) (.refl _))).parked
  case h_2 empty => exact empty

theorem endHold_parked (h : s.link.hold = true) : (endHold plainly s).sampler.parked = none := by
  rw [endHold, if_pos h]
  exact handParkedResult_parked _

end Hold

/-! ### The timers of the link (R178, R181) -/

section LinkTimers

variable {s : State}

theorem exec_markLead {e : Nat} (h : Undisturbed s) (he : s.bank.roundTimer = some e) (role : s.settings.bank.role = .master)
    (hold : s.link.hold = false) (lead : s.settings.bank.holdLead ≠ 0) :
    exec .markLead s = .next (beginLead (passUntil (instantOf e - holdLeadMs s) s)) := by
  have awaits : awaitsLead s = true := by simp [awaitsLead, role, hold, lead]
  have good : (passUntil (instantOf e - holdLeadMs s) s).memory.Clean := h.2
  refine (perform_powered reachLead h.1).trans (congrArg Host.Outcome.next ?_)
  unfold reachLead
  rw [he]
  dsimp only
  rw [if_pos awaits, carryOut_clean _ _ good]
  have reached : instantOf e ≤ (passUntil (instantOf e - holdLeadMs s) s).elapsed +
      holdLeadMs (passUntil (instantOf e - holdLeadMs s) s) := by
    change instantOf e ≤ max s.elapsed (instantOf e - holdLeadMs s) + holdLeadMs s
    omega
  unfold leadReached
  rw [show (passUntil (instantOf e - holdLeadMs s) s).bank.roundTimer = some e from he]
  exact if_pos (Bool.and_eq_true_iff.2 ⟨awaits, decide_eq_true reached⟩)

theorem exec_linkLost {at_ cause : Nat} (h : Undisturbed s) (role : s.settings.bank.role = .slave)
    (step : s.link.state = .inStep) (due : lossDue s = some (at_, cause)) :
    exec .linkLost s = .next (evaluateTrip plainly noWords (loseLink plainly cause (passUntil at_ s))) := by
  have follows : followsMark s = true := by simp [followsMark, role, step]
  have good : (passUntil at_ s).memory.Clean := h.2
  have reached : lossReached (passUntil at_ s) = loseLink plainly cause (passUntil at_ s) := by
    unfold lossReached
    rw [show lossDue (passUntil at_ s) = some (at_, cause) from due]
    exact (if_pos (Bool.and_eq_true_iff.2 ⟨follows, decide_eq_true (Nat.le_max_right ..)⟩)).trans (loseLink_clean _ good)
  refine (perform_powered reachLoss h.1).trans (congrArg Host.Outcome.next ?_)
  unfold reachLoss
  rw [due]
  dsimp only
  rw [if_pos follows, check_clean _ good.1, reached]
  exact judge_clean _ ((loseLink_part _ cause).clean good)

/-- The link as a loss leaves it, the round timer started, and the balancer as it was. -/
theorem loseLink_apart (cause : Nat) (s : State) :
    (loseLink plainly cause s).link = { s.link with state := .lost, hold := false } ∧
      (loseLink plainly cause s).balancer = s.balancer ∧
      (loseLink plainly cause s).bank.roundTimer = expiryAfter s s.settings.bank.balancePeriod := by
  have part := endHold_part { s with link := { s.link with state := .lost } }
  obtain ⟨hl, hb, hm⟩ := endHold_apart { s with link := { s.link with state := .lost } }
  refine ⟨hl, hb, ?_⟩
  change expiryAfter (endHold plainly _) (endHold plainly _).settings.bank.balancePeriod = _
  unfold expiryAfter bankClock
  rw [part.elapsed, part.kept.2.2.2.1]

theorem loseLink_event {cause : Nat} (hold : s.link.hold = false) (room : s.events.queue.length < 24) :
    (loseLink plainly cause s).events.queue = s.events.queue ++ [⟨.linkLost, 0, none, bankClock s, some cause⟩] := by
  have still : endHold plainly { s with link := { s.link with state := .lost } } =
      { s with link := { s.link with state := .lost } } := if_neg (by simp [hold])
  rw [loseLink, still]
  exact raise_queue .linkLost 0 none (some cause) (s := startRoundTimer { s with link := { s.link with state := .lost } }) room

/-- Settles O51. -/
theorem linkTimers : Obligations.LinkTimers := by
  unfold Obligations.LinkTimers
  refine fun s h => ⟨fun e he role hold lead => exec_markLead h he role hold lead, fun e he => ?pulse,
    fun at_ cause role step due => ?lost⟩
  case pulse =>
    refine (perform_powered endMarkPulse h.1).trans (congrArg Host.Outcome.next ?_)
    unfold endMarkPulse
    rw [he]
    rfl
  case lost =>
    have lost := loseLink_part (passUntil at_ s) cause
    have part := lost.trans (evaluateTrip_part _ noWords)
    have apart := evaluateTrip_apart noWords (loseLink plainly cause (passUntil at_ s))
    obtain ⟨link, balancer, timer⟩ := loseLink_apart cause (passUntil at_ s)
    have link := apart.link.trans link
    refine ⟨_, exec_linkLost h role step due, by rw [link], by rw [link], part.elapsed, apart.balancer.trans balancer,
      part.silent, fun hold => ?_, fun range => ?_, fun hold room => ?_⟩
    · have emptied : (loseLink plainly cause (passUntil at_ s)).sampler.parked = none :=
        endHold_parked (s := { passUntil at_ s with link := { s.link with state := .lost } }) hold
      exact (evaluateTrip_marks noWords _).parked.trans emptied
    · exact apart.roundTimer.trans (timer.trans (expiryAfter_in_range (s := passUntil at_ s) range))
    · have raised := loseLink_event (s := passUntil at_ s) (cause := cause) hold room
      have grown := evaluateTrip_grows noWords (loseLink plainly cause (passUntil at_ s))
      rw [raised] at grown
      exact first_of_grown grown

end LinkTimers

end Sys2Proof.Proofs
end

section
/-! A warm restart (R163): what it keeps, what it clears, and the evaluation of the trip function at its end. -/

namespace Sys2Proof.Proofs

open Sys2Proof Sys2Proof.Machine Sys2Proof.Laws

/-! ### Work that finds its words good -/

section Good

variable {s : State} {need : State → List Nat} {work : Work}

/-- Work that names good words alone, uses none and stores nothing is carried out on the state as it stands. -/
theorem checked_good (named : ∀ w ∈ need s, wrongBitsIn s.memory.wrongBits w = 0) (used : usedWords work s = [])
    (stored : (trial work s).memory.writeBacks = []) : checked need work s = work plain s := by
  have found : nextWrong [] (need s ++ usedWords work s) s = none := by
    rw [used, List.append_nil, nextWrong, List.find?_eq_none]
    exact fun w hw => by simp [named w hw]
  have still : check (fun u => need u ++ usedWords work u) s = s := check_good found
  rw [checked, behind, still, noteWrites, stored]
  exact ite_self _

/-- The trip words are good. -/
def TripWordsGood (s : State) : Prop :=
  wrongBitsIn s.memory.wrongBits 404 = 0 ∧ wrongBitsIn s.memory.wrongBits 405 = 0

/-- A trial of an evaluation notes no word where the trip words are good. -/
theorem trial_evaluateOutput (h : TripWordsGood s) {f : State → State} (hf : (f (trialOf s)).memory.wrongBits = s.memory.wrongBits)
    (hd : (f (trialOf s)).memory.damageList = []) (hw : (f (trialOf s)).memory.writeBacks = [])
    (he : (f (trialOf s)).events.queue = []) :
    usedWords (fun a t => evaluateOutput a (f t)) s = [] ∧
      (trial (fun a t => evaluateOutput a (f t)) s).memory.writeBacks = [] := by
  obtain ⟨g404, g405⟩ := h
  have memory : (followOutput (refreshOutput (f (trialOf s)))).memory = (f (trialOf s)).memory :=
    (followOutput_part _).memory.trans (refreshOutput_part _).memory
  have events := followed_events (f (trialOf s))
  refine ⟨usedWords_idle ?_ ?_, ?_⟩
  · change (followOutput (refreshOutput (f (trialOf s)))).memory.damageList ++ List.filter _ _ = []
    rw [memory, hd, hf, List.nil_append]
    split
    · simp [g404, g405]
    · rfl
  · change (followOutput (refreshOutput (f (trialOf s)))).events.queue = []
    rw [events, he]
  · change (followOutput (refreshOutput (f (trialOf s)))).memory.writeBacks = []
    rw [memory, hw]

/-- An evaluation behind one that trips nothing changes nothing more. -/
theorem followed_again (s : State) :
    followOutput (refreshOutput (followOutput (refreshOutput s))) = followOutput (refreshOutput s) := by
  have output : functionValue (followOutput (refreshOutput s)) = (followOutput (refreshOutput s)).trip.output := by
    rw [functionValue_followOutput, followOutput_output]
    rfl
  have fresh : refreshOutput (followOutput (refreshOutput s)) = followOutput (refreshOutput s) := by
    rw [refreshOutput, output]
  rw [fresh]
  generalize refreshOutput s = t
  by_cases off : t.bank.mode = .tripped ∨ t.trip.output = false
  · have stopped : followOutput t = { t with trip := { t.trip with timer := none } } := if_pos (by simpa using off)
    rw [stopped]
    exact if_pos (by simpa using off)
  · have on : ¬ (t.bank.mode = .tripped || !t.trip.output) = true := by simpa using off
    have running : (followOutput t).trip.timer.isSome = true := by
      rw [followOutput_timer_on (fun e => off (.inl e)) (by simpa using fun e => off (.inr e))]
      rfl
    obtain ⟨since, ht⟩ := Option.isSome_iff_exists.1 running
    have on' : ¬ ((followOutput t).bank.mode = .tripped || !(followOutput t).trip.output) = true := by
      rw [followOutput_mode, followOutput_output]
      exact on
    exact (if_neg on').trans (by simp only [ht])

theorem tripDue_followed (h : NoTripDue s) : tripDue (followOutput (refreshOutput s)) = false := by
  have stopped (off : (refreshOutput s).bank.mode = .tripped ∨ (refreshOutput s).trip.output = false) :
      tripDue (followOutput (refreshOutput s)) = false := by
    rw [tripDue, followOutput_timer_off off]
    rfl
  rcases h with h | h | h
  · exact stopped (.inr h)
  · exact stopped (.inl h)
  · rw [tripDue, followOutput_settings]
    exact Bool.and_eq_false_iff.2 (.inr (decide_eq_false h))

/-- Where the trip words are good, an evaluation behind one that trips nothing is nothing. -/
theorem judgeFound_followed (before : State) (good : TripWordsGood s) (h : NoTripDue s) :
    judgeFound before (followOutput (refreshOutput s)) = followOutput (refreshOutput s) := by
  have memory : (followOutput (refreshOutput s)).memory = s.memory :=
    (followOutput_part _).memory.trans (refreshOutput_part _).memory
  have kept : TripWordsGood (followOutput (refreshOutput s)) := by
    unfold TripWordsGood
    rw [memory]
    exact good
  obtain ⟨used, stored⟩ := trial_evaluateOutput (f := id) kept rfl rfl rfl rfl
  unfold judgeFound
  split
  case isFalse => rfl
  case isTrue =>
    have again : evaluateOutput plain (followOutput (refreshOutput s)) = followOutput (refreshOutput s) := followed_again s
    unfold judge evaluateTrip
    rw [checked_good (work := evaluateOutput) (fun w hw => ?_) used stored, again]
    · exact if_neg (by rw [tripDue_followed h]; simp)
    · split at hw
      · rcases List.mem_cons.1 hw with rfl | hw
        · exact kept.1
        · obtain rfl := List.mem_singleton.1 hw
          exact kept.2
      · exact absurd hw List.not_mem_nil

end Good

/-! ### A warm restart (R163) -/

section Warm

variable {s : State}

theorem rewrites_other (ws : List Nat) {m : Memory} {v : Nat} (h : v ∉ ws) :
    wrongBitsIn (ws.foldl Memory.rewrite m).wrongBits v = wrongBitsIn m.wrongBits v := by
  induction ws generalizing m with
  | nil => rfl
  | cons w rest ih =>
    obtain ⟨first, later⟩ := not_or.1 fun e => h (List.mem_cons.2 e)
    exact (ih later).trans (rewrite_other m first)

/-- The settings hold none of the working words. -/
theorem not_workWord {v : Nat} (h : 384 ≤ v) : v ∉ allWorkWords := by
  intro hv
  obtain ⟨i, -, hi⟩ := List.mem_flatMap.1 hv
  obtain ⟨k, hk, rfl⟩ := List.mem_map.1 hi
  have := List.mem_range.1 hk
  have := i.isLt
  simp only [recordBase] at h
  omega

theorem warm_wrongBitsIn {v : Nat} (hv : 384 ≤ v) (s : State) :
    wrongBitsIn (warmRestartBare s).memory.wrongBits v = wrongBitsIn s.memory.wrongBits v := by
  have list : (warmRestartBare s).memory.wrongBits = (allWorkWords.foldl Memory.rewrite s.memory).wrongBits :=
    warm_wrongBits _ _
  rw [list]
  exact rewrites_other _ (not_workWord hv)

theorem trial_beginScrub (h : TripWordsGood s) :
    usedWords (fun a t => evaluateOutput a (beginScrub t)) s = [] ∧
      (trial (fun a t => evaluateOutput a (beginScrub t)) s).memory.writeBacks = [] :=
  trial_evaluateOutput h rfl rfl rfl rfl

/-- A warm restart that finds the settings it starts with good and trips nothing. -/
theorem warmRestart_good (quiet : NoTripDue (warmRestartBare s))
    (good : ∀ w, 403 ≤ w → w ≤ 407 → wrongBitsIn s.memory.wrongBits w = 0) :
    warmRestart s = followOutput (refreshOutput (warmRestartBare s)) := by
  have found (w : Nat) (low : 403 ≤ w) (high : w ≤ 407) : wrongBitsIn (warmRestartBare s).memory.wrongBits w = 0 :=
    (warm_wrongBitsIn (by omega) s).trans (good w low high)
  have words : TripWordsGood (warmRestartBare s) := ⟨found 404 (by omega) (by omega), found 405 (by omega) (by omega)⟩
  obtain ⟨used, stored⟩ := trial_beginScrub words
  have evaluated : checked (fun _ => [403, 404, 405, 406, 407]) (fun a t => evaluateOutput a (beginScrub t))
      (warmRestartBare s) = followOutput (refreshOutput (warmRestartBare s)) := by
    rw [checked_good (fun w hw => found w ?_ ?_) used stored, beginScrub_warm]
    · rfl
    all_goals
      simp only [List.mem_cons, List.not_mem_nil, or_false] at hw
      omega
  have settled : tripIfDue checked (followOutput (refreshOutput (warmRestartBare s))) =
      followOutput (refreshOutput (warmRestartBare s)) := if_neg (by rw [tripDue_followed quiet]; simp)
  have whole : warmRestart s = judgeFound (warmRestartBare s) (tripIfDue checked (checked (fun _ => [403, 404, 405, 406, 407])
      (fun a t => evaluateOutput a (beginScrub t)) (warmRestartBare s))) := rfl
  rw [whole, evaluated, settled, judgeFound_followed _ words quiet]

theorem rewrites_fields (ws : List Nat) (m : Memory) : ws.foldl Memory.rewrite m =
    { m with
      wrongBits := (ws.foldl Memory.rewrite m).wrongBits, writeBacks := (ws.foldl Memory.rewrite m).writeBacks } := by
  induction ws generalizing m with
  | nil => rfl
  | cons w rest ih => rw [List.foldl_cons, ih (m.rewrite w)]; rfl

/-- The memory's record of its health is kept, and the scrub starts over (R185). -/
theorem warm_memory (m : Memory) (code : Nat) : m.warm code =
    { m with
      wrongBits := (m.warm code).wrongBits, writeBacks := [], scrubPointer := 0, scrubDue := scrubInterval code } := by
  rw [Memory.warm, rewrites_fields]

theorem warm_corrections (m : Memory) (code : Nat) : (m.warm code).corrections = m.corrections := by rw [warm_memory]
theorem warm_damageList (m : Memory) (code : Nat) : (m.warm code).damageList = m.damageList := by rw [warm_memory]
theorem warm_damageOverflow (m : Memory) (code : Nat) : (m.warm code).damageOverflow = m.damageOverflow := by
  rw [warm_memory]
theorem warm_damagedSetting (m : Memory) (code : Nat) : (m.warm code).damagedSetting = m.damagedSetting := by
  rw [warm_memory]

theorem warmState_eq (w : StationWork) :
    warmState w = if w.state = .unused then .unused else if w.damaged then .faulted .record else .standby := by
  unfold warmState
  split
  · rename_i h
    rw [if_pos h]
  · rename_i h
    rw [if_neg h]

/-- The trip unit as the evaluation of a restart leaves it. -/
theorem followed_cold (h : s.trip = TripUnit.cold) (hm : s.bank.mode = .idle) (he : s.elapsed = 0) :
    followOutput (refreshOutput s) = { s with trip := { TripUnit.cold with
      output := functionValue s, timer := if functionValue s = true then some 0 else none } } := by
  cases on : functionValue s with
  | false =>
    refine (if_pos ?_).trans ?_
    · simp [refreshOutput, on]
    · rw [refreshOutput, on, h]; rfl
  | true =>
    refine (if_neg ?_).trans ?_
    · simp [refreshOutput, on, hm]
    · rw [refreshOutput, on, h]
      simp [TripUnit.cold, he]

/-- Settles O47. -/
theorem warmRestartKeeps : Obligations.WarmRestartKeeps := by
  unfold Obligations.WarmRestartKeeps
  intro s hp due quiet good
  have ran : exec .warmRestart s = .next (warmRestart s) := by
    refine (perform_powered _ hp).trans (congrArg Host.Outcome.next ?_)
    exact if_pos due
  rw [warmRestart_good quiet good, followed_cold rfl rfl rfl] at ran
  refine ⟨_, ran, rfl, fun i => (warmRestartBare_record s i).1, fun i => ?_, rfl, rfl, rfl, rfl, rfl, rfl, rfl, rfl, rfl, rfl,
    rfl, rfl, rfl, rfl, rfl, rfl, rfl, rfl, rfl, ?_, rfl, rfl, rfl, rfl, rfl, rfl, ?_, ?_, ?_, ?_, ?_, ?_, ?_, rfl, rfl, rfl,
    rfl⟩
  · rw [← warmState_eq]
    exact (warmRestartBare_record s i).2
  · simp [warmRestartBare, Link.cold]
  · exact warm_corrections s.memory s.settings.bank.scrubCode
  · exact warm_damageList s.memory s.settings.bank.scrubCode
  · exact warm_damageOverflow s.memory s.settings.bank.scrubCode
  · exact warm_damagedSetting s.memory s.settings.bank.scrubCode
  all_goals rfl

end Warm

end Sys2Proof.Proofs
end

section
/-! The balance round (R102 to R116): its totals, its decision, and the bounds of its adjustments. -/

namespace Sys2Proof.Proofs

open Sys2Proof Sys2Proof.Machine Sys2Proof.Laws

/-! ### Totals (R102, R103) -/

section Totals

variable {s : State} {i : StationIx}

/-- A participant that is known: a valid flow record, and a quality result that is not stale (R103). -/
def knownPart (s : State) (i : StationIx) : Bool :=
  (s.work i).state.active && (s.work i).flow.valid && (s.work i).quality.isSome &&
    decide (bankClock s - ((s.work i).quality.map QualityResult.filed).getD 0 ≤ s.settings.bank.staleLimit)

theorem knownResult_eq (ha : (s.work i).state.active = true) :
    knownResult s i = if knownPart s i then (s.work i).quality else none := by
  unfold knownResult knownPart
  cases hq : (s.work i).quality with
  | none => simp
  | some r => simp [ha, and_comm]

/-- What one station adds to each total. -/
theorem totals_add (s : State) (t : Totals) (i : StationIx) :
    (Totals.add s t i).flow = t.flow + (if knownPart s i then (s.work i).flow.q else 0) ∧
    (Totals.add s t i).unknownFlow =
      t.unknownFlow + (if (s.work i).state.active && !knownPart s i then (s.work i).flow.q else 0) ∧
    (Totals.add s t i).methane = t.methane +
      (if knownPart s i then (s.work i).flow.q * ((s.work i).quality.map QualityResult.c).getD 0 else 0) ∧
    (Totals.add s t i).oxygen = t.oxygen +
      (if knownPart s i then (s.work i).flow.q * ((s.work i).quality.map QualityResult.o).getD 0 else 0) := by
  unfold Totals.add
  cases ha : (s.work i).state.active with
  | false => simp [knownPart, ha]
  | true =>
    rw [if_pos rfl, knownResult_eq ha]
    cases hk : knownPart s i with
    | false => simp
    | true =>
      obtain ⟨r, hr⟩ : ∃ r, (s.work i).quality = some r := by
        refine Option.isSome_iff_exists.1 ?_
        simp only [knownPart, Bool.and_eq_true] at hk
        exact hk.1.2
      simp [hr]

/-- The totals are sums over the stations. -/
theorem totals_sums (s : State) :
    (totals s).flow = (allStations.map fun i => if knownPart s i then (s.work i).flow.q else 0).sum ∧
    (totals s).unknownFlow =
      (allStations.map fun i => if (s.work i).state.active && !knownPart s i then (s.work i).flow.q else 0).sum ∧
    (totals s).methane = (allStations.map fun i =>
      if knownPart s i then (s.work i).flow.q * ((s.work i).quality.map QualityResult.c).getD 0 else 0).sum ∧
    (totals s).oxygen = (allStations.map fun i =>
      if knownPart s i then (s.work i).flow.q * ((s.work i).quality.map QualityResult.o).getD 0 else 0).sum := by
  have fold (p : Totals → Nat) (f : StationIx → Nat) (step : ∀ t i, p (Totals.add s t i) = p t + f i) (l : List StationIx)
      (t : Totals) : p (l.foldl (Totals.add s) t) = p t + (l.map f).sum := by
    induction l generalizing t with
    | nil => rfl
    | cons i rest ih => rw [List.foldl_cons, ih, step, List.map_cons, List.sum_cons, Nat.add_assoc]
  refine ⟨?_, ?_, ?_, ?_⟩
  · exact (fold Totals.flow _ (fun t i => (totals_add s t i).1) allStations Totals.zero).trans (Nat.zero_add _)
  · exact (fold Totals.unknownFlow _ (fun t i => (totals_add s t i).2.1) allStations Totals.zero).trans (Nat.zero_add _)
  · exact (fold Totals.methane _ (fun t i => (totals_add s t i).2.2.1) allStations Totals.zero).trans (Nat.zero_add _)
  · exact (fold Totals.oxygen _ (fun t i => (totals_add s t i).2.2.2) allStations Totals.zero).trans (Nat.zero_add _)

end Totals

/-! ### The branches of the decision (R104 to R108) -/

section Decision

variable {s : State}

/-- The kind of a round event by the bank mode (R100). -/
def roundKind (s : State) : RoundKind := if s.bank.mode = .running then .round else .assessment

/-- The record of a round event with no decision yet. -/
def roundBlank (s : State) : RoundRecord :=
  { time := bankClock s, kind := roundKind s, outcome := .noFlow, participants := (totals s).participants
    known := (totals s).known, knownFlow := (totals s).flow, unknownFlow := (totals s).unknownFlow, mixture := none
    purityBreached := false, oxygenBreached := false, adjustments := [], predicted := none }

/-- The share of the unknown flow is above the setting (R105). -/
def TooUnknown (s : State) : Prop :=
  s.settings.bank.unknownShare * ((totals s).flow + (totals s).unknownFlow) < (totals s).unknownFlow * 1000

/-- The record with the mixture and the breaches (R106). -/
def roundJudged (s : State) : RoundRecord :=
  { roundBlank s with
    mixture := some ((totals s).methane / (totals s).flow, (totals s).oxygen / (totals s).flow)
    purityBreached := decide ((totals s).methane < s.settings.bank.purityFloor * (totals s).flow)
    oxygenBreached := decide (s.settings.bank.oxygenCeiling * (totals s).flow < (totals s).oxygen) }

/-- A limit is breached. -/
def Breached (s : State) : Prop := (roundJudged s).purityBreached = true ∨ (roundJudged s).oxygenBreached = true

/-- The deficit procedure of a round (R110). -/
def deficitOf (s : State) : Running × RoundOutcome :=
  deficitLoop ⟨purityTarget s.settings.bank, oxygenTarget s.settings.bank, (roundJudged s).purityBreached,
      (roundJudged s).oxygenBreached, s.settings.bank.maxStepDown⟩
    (deficitOrder (candidates s)) ⟨(totals s).flow, (totals s).methane, (totals s).oxygen, []⟩

/-- Both surplus tests hold (R108). -/
def Surplus (s : State) : Prop :=
  (s.settings.bank.purityFloor + s.settings.bank.purityHysteresis) * (totals s).flow ≤ (totals s).methane ∧
    (totals s).oxygen ≤ (s.settings.bank.oxygenCeiling - s.settings.bank.oxygenHysteresis) * (totals s).flow

/-- The adjustment of a surplus round (R116). -/
def surplusOf (s : State) : Option Adjustment :=
  (surplusOrder (candidates s)).findSome? (surplusTry s.settings.bank (totals s))

theorem roundRecord_noFlow (h : (totals s).flow = 0) : roundRecord s = roundBlank s := if_pos h

theorem roundRecord_incomplete (h : (totals s).flow ≠ 0) (hu : TooUnknown s) :
    roundRecord s = { roundBlank s with outcome := .incomplete } := (if_neg h).trans (if_pos hu)

theorem roundRecord_held (h : (totals s).flow ≠ 0) (hu : ¬ TooUnknown s) (hm : s.bank.mode ≠ .running) :
    roundRecord s = { roundJudged s with outcome := .held } :=
  (if_neg h).trans ((if_neg hu).trans (if_pos (if_neg hm)))

theorem roundKind_running (hm : s.bank.mode = .running) : ¬ roundKind s = .assessment := by simp [roundKind, hm]

theorem roundRecord_deficit (h : (totals s).flow ≠ 0) (hu : ¬ TooUnknown s) (hm : s.bank.mode = .running)
    (hb : Breached s) : roundRecord s = { roundJudged s with
      outcome := (deficitOf s).2
      adjustments := (deficitOf s).1.adjustments
      predicted := some ((deficitOf s).1.methane / (deficitOf s).1.flow, (deficitOf s).1.oxygen / (deficitOf s).1.flow) } :=
  (if_neg h).trans ((if_neg hu).trans ((if_neg (roundKind_running hm)).trans (if_pos (Bool.or_eq_true_iff.2 hb))))

theorem roundRecord_surplus (h : (totals s).flow ≠ 0) (hu : ¬ TooUnknown s) (hm : s.bank.mode = .running)
    (hb : ¬ Breached s) (hs : Surplus s) : roundRecord s =
      match surplusOf s with
      | some adj => { roundJudged s with outcome := .surplus, adjustments := [adj] }
      | none => { roundJudged s with outcome := .surplusNone } := by
  have tests : (decide ((s.settings.bank.purityFloor + s.settings.bank.purityHysteresis) * (totals s).flow ≤ (totals s).methane) &&
      decide ((totals s).oxygen ≤ (s.settings.bank.oxygenCeiling - s.settings.bank.oxygenHysteresis) * (totals s).flow)) = true := by
    simpa [Surplus] using hs
  exact (if_neg h).trans ((if_neg hu).trans ((if_neg (roundKind_running hm)).trans
    ((if_neg fun e => hb (Bool.or_eq_true_iff.1 e)).trans (if_pos tests))))

theorem roundRecord_band (h : (totals s).flow ≠ 0) (hu : ¬ TooUnknown s) (hm : s.bank.mode = .running)
    (hb : ¬ Breached s) (hs : ¬ Surplus s) : roundRecord s = { roundJudged s with outcome := .band } := by
  have tests : ¬ (decide ((s.settings.bank.purityFloor + s.settings.bank.purityHysteresis) * (totals s).flow ≤ (totals s).methane) &&
      decide ((totals s).oxygen ≤ (s.settings.bank.oxygenCeiling - s.settings.bank.oxygenHysteresis) * (totals s).flow)) = true := by
    simpa [Surplus] using hs
  exact (if_neg h).trans ((if_neg hu).trans ((if_neg (roundKind_running hm)).trans
    ((if_neg fun e => hb (Bool.or_eq_true_iff.1 e)).trans (if_neg tests))))

/-- A deficit round ends with its limits restored or with a shortfall (R114). -/
theorem deficitLoop_outcome (a : DeficitAim) (l : List Candidate) (r : Running) :
    (deficitLoop a l r).2 = .deficit ∨ (deficitLoop a l r).2 = .shortfall := by
  induction l generalizing r with
  | nil =>
    unfold deficitLoop
    dsimp only
    split
    · exact .inr rfl
    · exact .inl rfl
  | cons j rest ih =>
    unfold deficitLoop
    split
    · split
      · exact ih _
      · exact .inl rfl
    · exact .inl rfl

/-- Every record is blank but for what its branch decides. -/
theorem roundRecord_base (s : State) : (roundRecord s).time = bankClock s ∧ (roundRecord s).kind = roundKind s ∧
    (roundRecord s).knownFlow = (totals s).flow ∧ (roundRecord s).unknownFlow = (totals s).unknownFlow := by
  by_cases h : (totals s).flow = 0
  · rw [roundRecord_noFlow h]
    exact ⟨rfl, rfl, rfl, rfl⟩
  by_cases hu : TooUnknown s
  · rw [roundRecord_incomplete h hu]
    exact ⟨rfl, rfl, rfl, rfl⟩
  by_cases hm : s.bank.mode = .running
  case neg =>
    rw [roundRecord_held h hu hm]
    exact ⟨rfl, rfl, rfl, rfl⟩
  by_cases hb : Breached s
  · rw [roundRecord_deficit h hu hm hb]
    exact ⟨rfl, rfl, rfl, rfl⟩
  by_cases hs : Surplus s
  · rw [roundRecord_surplus h hu hm hb hs]
    split <;> exact ⟨rfl, rfl, rfl, rfl⟩
  · rw [roundRecord_band h hu hm hb hs]
    exact ⟨rfl, rfl, rfl, rfl⟩

/-- A round that is judged gives its record the mixture, the breaches, and an outcome by which the conditions follow it. -/
theorem roundRecord_judged (h : (totals s).flow ≠ 0) (hu : ¬ TooUnknown s) :
    (roundRecord s).mixture = (roundJudged s).mixture ∧
    (roundRecord s).purityBreached = (roundJudged s).purityBreached ∧
    (roundRecord s).oxygenBreached = (roundJudged s).oxygenBreached ∧
    (roundRecord s).outcome ≠ .noFlow ∧ (roundRecord s).outcome ≠ .incomplete := by
  by_cases hm : s.bank.mode = .running
  case neg =>
    rw [roundRecord_held h hu hm]
    exact ⟨rfl, rfl, rfl, by simp, by simp⟩
  by_cases hb : Breached s
  · rw [roundRecord_deficit h hu hm hb]
    refine ⟨rfl, rfl, rfl, ?_, ?_⟩ <;>
      rcases deficitLoop_outcome _ (deficitOrder (candidates s)) _ with e | e <;> exact fun e' => nomatch e.symm.trans e'
  by_cases hs : Surplus s
  · rw [roundRecord_surplus h hu hm hb hs]
    split <;> exact ⟨rfl, rfl, rfl, by simp, by simp⟩
  · rw [roundRecord_band h hu hm hb hs]
    exact ⟨rfl, rfl, rfl, by simp, by simp⟩

theorem purityLowAfter_judged {r : RoundRecord} (h : r.outcome ≠ .noFlow) (hi : r.outcome ≠ .incomplete) :
    purityLowAfter s r = decide ((totals s).methane < tripFloorInUse s.settings.bank * (totals s).flow) := by
  unfold purityLowAfter
  split
  · exact absurd ‹_› h
  · exact absurd ‹_› hi
  · rfl

theorem o2HighAfter_judged {r : RoundRecord} (h : r.outcome ≠ .noFlow) (hi : r.outcome ≠ .incomplete) :
    o2HighAfter s r = decide ((tripCeilingInUse s.settings.bank + 1) * (totals s).flow ≤ (totals s).oxygen) := by
  unfold o2HighAfter
  split
  · exact absurd ‹_› h
  · exact absurd ‹_› hi
  · rfl

/-- Settles O59. -/
theorem roundDecision : Obligations.RoundDecision := by
  unfold Obligations.RoundDecision
  intro s b r part age known sum flow rest methane oxygen
  obtain ⟨hflow, hrest, hmethane, hoxygen⟩ := totals_sums s
  have hflow : flow = (totals s).flow := hflow.symm
  have hrest : rest = (totals s).unknownFlow := hrest.symm
  have hmethane : methane = (totals s).methane := hmethane.symm
  have hoxygen : oxygen = (totals s).oxygen := hoxygen.symm
  rw [hflow, hrest, hmethane, hoxygen]
  obtain ⟨time, kind, known, unknown⟩ := roundRecord_base s
  refine ⟨time, ?kind, known, unknown, fun h => ?noFlow, fun h hu => ?incomplete, fun h hu => ?judged⟩
  case kind =>
    rw [show r.kind = roundKind s from kind]
    unfold roundKind
    split
    · simp [*]
    · simp [*]
  case noFlow =>
    have record : r = roundBlank s := roundRecord_noFlow h
    rw [record]
    exact ⟨rfl, rfl, rfl, rfl, rfl⟩
  case incomplete =>
    have record : r = _ := roundRecord_incomplete h hu
    rw [record]
    exact ⟨rfl, rfl, rfl, rfl, rfl⟩
  case judged =>
    have hu : ¬ TooUnknown s := Nat.not_lt.2 hu
    obtain ⟨mixture, purity, oxygen, hn, hi⟩ := roundRecord_judged h hu
    have purity : r.purityBreached = (roundJudged s).purityBreached := purity
    have oxygen : r.oxygenBreached = (roundJudged s).oxygenBreached := oxygen
    refine ⟨mixture, ?_, ?_, ?_, ?_, fun hm => ?held, fun hm => ⟨fun hb => ?deficit, fun hp ho => ⟨fun hs => ?surplus,
      fun hs => ?band⟩⟩⟩
    · rw [purity]; exact decide_eq_true_iff
    · rw [oxygen]; exact decide_eq_true_iff
    · rw [purityLowAfter_judged hn hi]; exact decide_eq_true_iff
    · rw [o2HighAfter_judged hn hi]; exact decide_eq_true_iff
    case held =>
      have record : r = _ := roundRecord_held h hu hm
      rw [record]
      exact ⟨rfl, rfl⟩
    case deficit =>
      have record : r = _ := roundRecord_deficit h hu hm (by unfold Breached; rw [← purity, ← oxygen]; exact hb)
      rw [record]
      exact deficitLoop_outcome ..
    all_goals
      have unbreached : ¬ Breached s := by
        unfold Breached
        rw [← purity, ← oxygen, hp, ho]
        simp
    case surplus =>
      have record : r = _ := roundRecord_surplus h hu hm unbreached hs
      rw [record]
      split
      · exact .inl rfl
      · exact .inr rfl
    case band =>
      have other : ¬ Surplus s := fun ⟨hp, ho⟩ => hs.elim (Nat.not_lt.2 hp) (Nat.not_lt.2 ho)
      have record : r = _ := roundRecord_band h hu hm unbreached other
      rw [record]
      exact ⟨rfl, rfl⟩

end Decision

/-! ### Adjustments (R109 to R117) -/

section Adjustments

variable {s : State} {j : Candidate} {a : Adjustment}

/-- What the procedures read of a station they may adjust (R109). -/
structure Adjustable (s : State) (j : Candidate) : Prop where
  producing : (s.work j.station).state = .producing
  unpinned : (s.cfg j.station).pinned = false
  fresh : (s.work j.station).fresh = true
  still : motionStatus s j.station = .none
  target : j.v = (s.work j.station).target
  lower : j.vMin = (s.cfg j.station).vMin
  upper : j.vMax = (s.cfg j.station).vMax
  above : j.vMin < j.v

theorem adjustable_of_candidate (h : j ∈ candidates s) : Adjustable s j := by
  obtain ⟨i, -, hi⟩ := List.mem_filterMap.1 h
  unfold adjustable at hi
  split at hi
  case h_2 => cases hi
  case h_1 =>
    split at hi
    case isFalse => cases hi
    case isTrue able =>
      obtain rfl := Option.some.inj hi
      simp only [Bool.and_eq_true, decide_eq_true_eq, Bool.not_eq_true'] at able
      obtain ⟨⟨⟨⟨producing, unpinned⟩, fresh⟩, still⟩, above⟩ := able
      exact ⟨producing, unpinned, fresh, still, rfl, rfl, rfl, above⟩

/-- A cut: a candidate's opening goes down by a step within its bounds (R112, R113). -/
def CutOf (maxStep : Nat) (j : Candidate) (a : Adjustment) : Prop :=
  a.station = j.station ∧ a.old = j.v ∧ ∃ step, 0 < step ∧ step ≤ maxStep ∧ step ≤ j.v - j.vMin ∧ a.new = j.v - step

theorem examine_adjustments (aim : DeficitAim) (r : Running) (j : Candidate) :
    (examine aim r j).adjustments = r.adjustments ∨
      ∃ a, CutOf aim.maxStep j a ∧ (examine aim r j).adjustments = r.adjustments ++ [a] := by
  unfold examine
  dsimp only
  split
  case isTrue => exact .inl rfl
  case isFalse some_ =>
    refine .inr ⟨_, ⟨rfl, rfl, cutStep aim r j, Nat.pos_of_ne_zero some_, ?_, ?_, rfl⟩, rfl⟩ <;>
    · unfold cutStep
      split <;> omega

/-- A deficit round makes at most four adjustments, each a cut of one of its candidates (R110 to R113). -/
theorem deficitLoop_adjustments (aim : DeficitAim) (l : List Candidate) (r : Running)
    (few : r.adjustments.length ≤ 4) (P : Adjustment → Prop) (cut : ∀ j ∈ l, ∀ a, CutOf aim.maxStep j a → P a)
    (old : ∀ a ∈ r.adjustments, P a) :
    (deficitLoop aim l r).1.adjustments.length ≤ 4 ∧ ∀ a ∈ (deficitLoop aim l r).1.adjustments, P a := by
  induction l generalizing r with
  | nil => exact ⟨few, old⟩
  | cons j rest ih =>
    have later : ∀ j ∈ rest, ∀ a, CutOf aim.maxStep j a → P a := fun k hk => cut k (List.mem_cons_of_mem _ hk)
    unfold deficitLoop
    split
    case isFalse => exact ⟨few, old⟩
    case isTrue =>
      split
      case isFalse => exact ⟨few, old⟩
      case isTrue room =>
        have room : r.adjustments.length < 4 := room
        rcases examine_adjustments aim r j with e | ⟨a, ha, e⟩
        · exact ih _ (by rw [e]; exact few) later (by rw [e]; exact old)
        · refine ih _ (by rw [e, List.length_append]; exact room) later fun b hb => ?_
          rw [e] at hb
          rcases List.mem_append.1 hb with hb | hb
          · exact old b hb
          · exact List.mem_singleton.1 hb ▸ cut j List.mem_cons_self a ha

/-- What the bounds of the procedures come to, of an adjustment made downward or upward. -/
def AdjustmentBounded (s : State) (down : Prop) (a : Adjustment) : Prop :=
  (s.work a.station).state = .producing ∧ (s.cfg a.station).pinned = false ∧ (s.work a.station).fresh = true ∧
    motionStatus s a.station = .none ∧ a.old = (s.work a.station).target ∧
    (down → (s.cfg a.station).vMin ≤ a.new ∧ a.new < a.old ∧ a.old ≤ a.new + s.settings.bank.maxStepDown) ∧
    (¬ down → a.old ≤ a.new ∧ a.new ≤ (s.cfg a.station).vMax ∧ a.new ≤ a.old + s.settings.bank.stepUp)

theorem bounded_of_cut {down : Prop} (hd : down) (hj : Adjustable s j) (h : CutOf s.settings.bank.maxStepDown j a) :
    AdjustmentBounded s down a := by
  obtain ⟨station, old, step, positive, small, room, new⟩ := h
  have above := hj.above
  have lower := hj.lower
  unfold AdjustmentBounded
  rw [station]
  exact ⟨hj.producing, hj.unpinned, hj.fresh, hj.still, old.trans hj.target, fun _ => by omega, fun nd => absurd hd nd⟩

/-- The adjustment of a surplus round is a raise of one of the candidates that have room (R115, R116). -/
theorem surplusOf_bounded {down : Prop} (hd : ¬ down) (h : surplusOf s = some a) : AdjustmentBounded s down a := by
  obtain ⟨j, hj, tried⟩ := List.exists_of_findSome?_eq_some h
  have filtered := (List.mem_insertionSort _).1 hj
  obtain ⟨hc, able⟩ := List.mem_filter.1 filtered
  have able := (Bool.and_eq_true_iff.1 able).1
  have room : j.v < j.vMax := of_decide_eq_true able
  have hj := adjustable_of_candidate hc
  have upper := hj.upper
  unfold surplusTry at tried
  dsimp only at tried
  split at tried
  case isFalse => cases tried
  case isTrue =>
    obtain rfl := Option.some.inj tried
    refine ⟨hj.producing, hj.unpinned, hj.fresh, hj.still, hj.target, fun d => absurd d hd, fun _ => ?_⟩
    dsimp only
    rw [← upper]
    omega

/-- Settles O60: adjustments come from the deficit procedure, downward, or from the surplus procedure, upward. -/
theorem roundAdjustmentsBounded : Obligations.RoundAdjustmentsBounded := by
  unfold Obligations.RoundAdjustmentsBounded
  intro s
  suffices bounded : (roundRecord s).adjustments.length ≤ 4 ∧ ∀ a ∈ (roundRecord s).adjustments, AdjustmentBounded s
      ((roundRecord s).purityBreached = true ∨ (roundRecord s).oxygenBreached = true) a by
    refine ⟨bounded.1, fun a ha => ?_⟩
    obtain ⟨producing, unpinned, fresh, still, old, downward, upward⟩ := bounded.2 a ha
    exact ⟨producing, unpinned, fresh, still, old, downward, fun ⟨hp, ho⟩ => upward (by simp [hp, ho])⟩
  have nothing_ {l : List Adjustment} {P : Adjustment → Prop} (h : l = []) : l.length ≤ 4 ∧ ∀ a ∈ l, P a := by simp [h]
  by_cases h : (totals s).flow = 0
  · exact nothing_ (by rw [roundRecord_noFlow h]; rfl)
  by_cases hu : TooUnknown s
  · exact nothing_ (by rw [roundRecord_incomplete h hu]; rfl)
  by_cases hm : s.bank.mode = .running
  case neg => exact nothing_ (by rw [roundRecord_held h hu hm]; rfl)
  obtain ⟨-, purity, oxygen, -, -⟩ := roundRecord_judged h hu
  rw [purity, oxygen]
  by_cases hb : Breached s
  · rw [roundRecord_deficit h hu hm hb]
    have none_ : ([] : List Adjustment).length ≤ 4 := Nat.zero_le 4
    refine deficitLoop_adjustments _ _ ⟨_, _, _, []⟩ none_ _ (fun j hj a ha => ?_) fun a ha => absurd ha List.not_mem_nil
    exact bounded_of_cut hb (adjustable_of_candidate ((List.mem_insertionSort _).1 hj)) ha
  by_cases hs : Surplus s
  · rw [roundRecord_surplus h hu hm hb hs]
    split
    case h_1 a found =>
      refine ⟨Nat.le_of_ble_eq_true rfl, fun b hb' => ?_⟩
      obtain rfl : b = a := List.mem_singleton.1 hb'
      exact surplusOf_bounded hb found
    case h_2 => exact nothing_ rfl
  · exact nothing_ (by rw [roundRecord_band h hu hm hb hs]; rfl)

end Adjustments

end Sys2Proof.Proofs
end

section
/-! The classification of a filed result (R86 to R92). -/

namespace Sys2Proof.Proofs

open Sys2Proof Sys2Proof.Machine Sys2Proof.Laws

section Classifier

variable {s t : State} {i : StationIx} {r : StationResult}

/-- A filed result touches the quality result and the fresh flag of its station's record (R32, R86). -/
theorem storeResult_own (r : StationResult) (s : State) : ∃ q f,
    (storeResult plain r s).work r.station = { s.work r.station with quality := some q, fresh := f } := by
  unfold storeResult
  dsimp only [putWork_plain]
  split
  · exact ⟨_, _, setWork_work_same s r.station _⟩
  · exact ⟨_, _, setWork_work_same s r.station _⟩

theorem lowerLimit_le_upper (b : BankSettings) (c : StationConfig) : lowerLimit b c ≤ upperLimit b c :=
  (Nat.min_le_left ..).trans (Nat.le_max_left ..)

theorem areaFor_poor_iff : areaFor s r = .poor ↔ r.c < lowerLimit s.settings.bank (s.cfg r.station) := by
  unfold areaFor areaOf
  split
  · simp [*]
  · split <;> simp [*]

theorem areaFor_good_iff : areaFor s r = .good ↔ upperLimit s.settings.bank (s.cfg r.station) ≤ r.c := by
  have ordered := lowerLimit_le_upper s.settings.bank (s.cfg r.station)
  unfold areaFor areaOf
  split
  · simp; omega
  · split
    · simp [*]
    · simpa using Nat.not_lt.1 ‹_›

/-- A station whose position a grant would find stands as it has been sent: in its state, at its clamped target. -/
theorem enterApply_drivable {new : StationState} {l : List WorkField} {f : StationWork → StationWork} {requested : Nat}
    (hp : (f (s.work i)).position = (s.work i).position) (hd : Drivable i s) :
    ∃ w, Aimed (f (s.work i)) (s.cfg i) new requested w ∧
      Reported w ((applyTarget plain i requested (enterState plain i new l f s)).work i) := by
  obtain ⟨w, aimed, reported | ⟨absent, -⟩⟩ := enterApply_own (l := l) (new := new) (requested := requested) hp
  · exact ⟨w, aimed, reported⟩
  · exact absurd hd absent

theorem quarantine_own {count : Nat} (hd : Drivable i s) : ((quarantine plain i count s).work i).state = .quarantined ∧
    ((quarantine plain i count s).work i).target = (s.cfg i).sniffOpening ∧
    ((quarantine plain i count s).work i).quarantineCount = count ∧ ((quarantine plain i count s).work i).recoveryRun = 0 := by
  obtain ⟨w, ⟨aimed, -⟩, reported⟩ := enterApply_drivable (new := .quarantined) (l := countFields)
    (f := fun w => { w with quarantineCount := count, recoveryRun := 0 }) (requested := (s.cfg i).sniffOpening) rfl hd
  refine ⟨reported.state.trans ?_, reported.target.trans ?_, reported.quarantineCount.trans ?_,
    reported.recoveryRun.trans ?_⟩ <;> rw [aimed]
  rfl

theorem exhaust_own (hd : Drivable i s) : ((exhaust plain i s).work i).state = .standby ∧
    ((exhaust plain i s).work i).target = 0 ∧
    ((exhaust plain i s).work i).restartMark = (s.work i).restartMark ∧
    ((exhaust plain i s).work i).quarantineCount = exhaustedCount (s.cfg i).quarantineLimit := by
  obtain ⟨w, ⟨aimed, -⟩, reported⟩ := enterApply_drivable
    (s := raise .exhausted (stationNumber i) none (some (exhaustedCount (s.cfg i).quarantineLimit)) s) (i := i)
    (new := .standby) (l := countFields) (requested := 0)
    (f := fun w => { w with quarantineCount := exhaustedCount (s.cfg i).quarantineLimit, recoveryRun := 0 }) rfl hd
  refine ⟨reported.state.trans ?_, reported.target.trans ?_, reported.restartMark.trans ?_,
    reported.quarantineCount.trans ?_⟩ <;> rw [aimed] <;> rfl

theorem recover_own (hd : Drivable i s) : ((recover plain i s).work i).state = .producing ∧
    ((recover plain i s).work i).recoveryRun = 0 ∧
    ((recover plain i s).work i).target = clampTarget (s.cfg i) .producing (s.cfg i).startOpening ∧
    ((recover plain i s).work i).quarantineCount = (s.work i).quarantineCount := by
  obtain ⟨w, ⟨aimed, -⟩, reported⟩ := enterApply_drivable (new := .producing) (l := [.recoveryRun])
    (f := fun w => { w with recoveryRun := 0 }) (requested := (s.cfg i).startOpening) rfl hd
  refine ⟨reported.state.trans ?_, reported.recoveryRun.trans ?_, reported.target.trans ?_,
    reported.quarantineCount.trans ?_⟩ <;> rw [aimed]

/-- Settles O55, along the transition rules of the two states that are sampled. -/
theorem filedResultIsClassified : Obligations.FiledResultIsClassified := by
  unfold Obligations.FiledResultIsClassified
  intro s r sampled drivable i t poor good count
  have filed : t = applyTransition plain i (areaFor s r) (storeResult plain r s) := if_pos sampled
  obtain ⟨q, f, own⟩ := storeResult_own r s
  have table := storeResult_table s r
  have cfg : (storeResult plain r s).cfg i = s.cfg i := table.cfg i
  have drivable : Drivable i (storeResult plain r s) := by
    unfold Drivable
    rw [table.bank, own]
    exact drivable
  have hpoor : areaFor s r = .poor ↔ poor := areaFor_poor_iff
  have hgood : areaFor s r = .good ↔ good := areaFor_good_iff
  rw [filed, applyTransition_plain, own]
  generalize hu : storeResult plain r s = u at own cfg drivable
  refine ⟨fun hs hp => ?left, fun hs hp hc => ?quarantined, fun hs hp hc => ?retired, fun hs hg => ?stays,
    fun hs hg hc => ?counted, fun hs hg hc => ?recovered⟩ <;> dsimp only <;> rw [hs] <;> dsimp only
  case left =>
    rw [classifyProducing_plain, if_neg (fun e => hp (hpoor.1 e)), own]
    exact ⟨hs, rfl, rfl⟩
  case quarantined =>
    have within_ : (u.work i).quarantineCount + 1 ≤ (u.cfg i).quarantineLimit := by rw [own, cfg]; exact hc
    rw [classifyProducing_plain, if_pos (hpoor.2 hp), if_pos within_]
    obtain ⟨state, target, counted, run⟩ := quarantine_own (count := (u.work i).quarantineCount + 1) drivable
    exact ⟨state, target.trans (by rw [cfg]), counted.trans (by rw [own]), run⟩
  case retired =>
    have beyond : ¬ (u.work i).quarantineCount + 1 ≤ (u.cfg i).quarantineLimit := by rw [own, cfg]; exact Nat.not_le.2 hc
    rw [classifyProducing_plain, if_pos (hpoor.2 hp), if_neg beyond]
    obtain ⟨state, target, mark, counted⟩ := exhaust_own drivable
    exact ⟨state, target, mark.trans (by rw [own]), counted.trans (by rw [cfg]; rfl)⟩
  case stays =>
    rw [classifyQuarantined_plain, if_neg (fun e => hg (hgood.1 e)), setWork_work_same, own]
    exact ⟨hs, rfl, rfl⟩
  case counted =>
    have short : ¬ (u.cfg i).recoveryCount ≤ (u.work i).recoveryRun + 1 := by rw [own, cfg]; exact Nat.not_le.2 hc
    rw [classifyQuarantined_plain, if_pos (hgood.2 hg), if_neg short, setWork_work_same, own]
    exact ⟨hs, rfl⟩
  case recovered =>
    have reached : (u.cfg i).recoveryCount ≤ (u.work i).recoveryRun + 1 := by rw [own, cfg]; exact hc
    rw [classifyQuarantined_plain, if_pos (hgood.2 hg), if_pos reached]
    obtain ⟨state, run, target, counted⟩ := recover_own drivable
    exact ⟨state, run, target.trans (by rw [cfg]), counted.trans (by rw [own])⟩

end Classifier

end Sys2Proof.Proofs
end

section
/-! The MODE requests and the trip (R28, R29, R151 to R157, R170 to R174). -/

namespace Sys2Proof.Proofs

open Sys2Proof Sys2Proof.Machine Sys2Proof.Laws

/-! ### The conditions behind changes of the table -/

section Steady

variable {s t u : State} {i j : StationIx}

theorem SameConditions.refl (s : State) : SameConditions s s := ⟨rfl, rfl, rfl, rfl, rfl, rfl, fun _ => rfl, rfl⟩

theorem SameConditions.trans (h : SameConditions s t) (k : SameConditions t u) : SameConditions s u :=
  ⟨k.settings.trans h.settings, k.balancer.trans h.balancer, k.measure.trans h.measure, k.pins.trans h.pins,
    k.drive.trans h.drive, k.setting.trans h.setting, fun j => (k.damaged j).trans (h.damaged j), k.fault.trans h.fault⟩

theorem setWork_conditions {w : StationWork} (h : w.damaged = (s.work i).damaged) : SameConditions s (s.setWork i w) := by
  refine .of_table (setWork_table s i w) (fun j => ?_) rfl
  by_cases hj : j = i
  · subst hj
    rw [setWork_work_same, h]
  · rw [setWork_work_other _ _ hj]

theorem enterState_conditions {new : StationState} {l : List WorkField} {f : StationWork → StationWork}
    (h : (f (s.work i)).damaged = (s.work i).damaged) : SameConditions s (enterState plain i new l f s) := by
  refine .of_table (enterState_table s i new l f) (fun j => ?_) (enterState_stands i new l f s).condition
  by_cases hj : j = i
  · subst hj
    rw [enterState_work_same]
    exact h
  · rw [enterState_work_other _ _ _ _ _ hj]

/-- No change of the table moves a condition of the trip function. -/
theorem conditions_steady (s : State) : TableSteady (SameConditions s) where
  raise _ _ _ _ h := h.trans (.of_table (raise_table ..) (fun _ => rfl) rfl)
  soft _ _ hw h := h.trans (setWork_conditions hw.damaged)
  aim i r h := h.trans (aimed_sameConditions i r _)
  enter _ _ _ _ he _ _ h := h.trans (enterState_conditions he.damaged)
  enterAim _ _ _ _ _ he h := (h.trans (enterState_conditions he.damaged)).trans (aimed_sameConditions _ _ _)
  standDown {t} i h := by
    refine h.trans (.of_table (standDown_table t i) (fun j => ?_) (by rw [(standDown_claims i t).only]))
    by_cases hj : j = i
    · exact hj ▸ (standDown_stoodDown i t).damaged
    · rw [standDown_work_other hj]
  selection k hk _ h := h.trans ⟨rfl, rfl, rfl, rfl, rfl, rfl, fun _ => rfl, hk.fault⟩
  drive _ _ h := h.trans ⟨rfl, rfl, rfl, rfl, rfl, rfl, fun _ => rfl, rfl⟩

end Steady

/-! ### Work over several stations, seen from one of them -/

section Passing

variable {s t u : State} {i j : StationIx}

/-- What other stations' changes leave of a station whose position a grant would find: its record, but for what the drive reports. -/
def Passing (i : StationIx) (s t : State) : Prop :=
  TableChange s t ∧ (Drivable i s → Reported (s.work i) (t.work i))

theorem Passing.refl (i : StationIx) (s : State) : Passing i s s := ⟨.refl s, fun _ => .refl _⟩

theorem Passing.drivable (h : Passing i s t) (hd : Drivable i s) : Drivable i t := by
  unfold Drivable
  rw [h.1.bank, (h.2 hd).position]
  exact hd

theorem Passing.trans (h : Passing i s t) (k : Passing i t u) : Passing i s u :=
  ⟨h.1.trans k.1, fun hd => (h.2 hd).trans (k.2 (h.drivable hd))⟩

theorem Driven.passing (h : Driven s t) (i : StationIx) : Passing i s t := ⟨h.table, h.reported⟩

theorem Passing.of_work (table : TableChange s t) (h : t.work i = s.work i) : Passing i s t :=
  ⟨table, fun _ => h ▸ .refl _⟩

theorem applyTarget_passing (r : Nat) (s : State) (h : i ≠ j) : Passing i s (applyTarget plain j r s) :=
  Passing.trans (.of_work (aimed_table j r s) (aimed_work_other h r s)) ((applyTarget_driven j r s).passing i)

theorem startStation_passing (s : State) (h : i ≠ j) : Passing i s (startStation plain j s) := by
  rw [startStation_eq]
  exact Passing.trans (.of_work (enterState_table ..) (enterState_work_other _ _ _ _ _ h)) (applyTarget_passing _ _ h)

/-- A run over a list that names a station's item once comes to it with the state that the items before have led to, and goes on
with those behind. -/
theorem foldl_visits {α : Type} {f : State → α → State} {R : State → State → Prop} (refl : ∀ s, R s s)
    (trans : ∀ {s t u}, R s t → R t u → R s u) {l : List α} (once : l.Nodup) {a : α} (ha : a ∈ l)
    (others : ∀ b ∈ l, b ≠ a → ∀ s, R s (f s b)) (s : State) : ∃ u, R s u ∧ R (f u a) (l.foldl f s) := by
  have passes (l' : List α) (h : ∀ b ∈ l', ∀ s, R s (f s b)) (s : State) : R s (l'.foldl f s) := by
    induction l' generalizing s with
    | nil => exact refl s
    | cons b rest ih =>
      exact trans (h b List.mem_cons_self s) (ih (fun c hc => h c (List.mem_cons_of_mem _ hc)) (f s b))
  obtain ⟨front, back, rfl⟩ := List.append_of_mem ha
  rw [List.nodup_append] at once
  obtain ⟨-, hback, apart⟩ := once
  have hback := (List.nodup_cons.1 hback).1
  rw [List.foldl_append, List.foldl_cons]
  refine ⟨front.foldl f s, passes front (fun b hb => others b (by simp [hb]) ?_) s,
    passes back (fun b hb => others b (by simp [hb]) ?_) _⟩
  · exact fun e => apart b hb a List.mem_cons_self e
  · exact fun e => hback (e ▸ hb)

end Passing

/-! ### An evaluation that trips nothing -/

section Quiet

variable {s : State}

/-- It leaves the latch, the record and the lines. -/
theorem evaluateTrip_lines (need : State → List Nat) (h : NoTripDue s) :
    (evaluateTrip plainly need s).trip.latch = s.trip.latch ∧ (evaluateTrip plainly need s).trip.line = s.trip.line ∧
      (evaluateTrip plainly need s).trip.linkDrive = s.trip.linkDrive ∧
      (evaluateTrip plainly need s).trip.record = s.trip.record := by
  rw [evaluateTrip_of_noTripDue need h]
  unfold followOutput
  split
  · exact ⟨rfl, rfl, rfl, rfl⟩
  · split <;> exact ⟨rfl, rfl, rfl, rfl⟩

theorem evaluateTrip_quiet_work (need : State → List Nat) (h : NoTripDue s) (i : StationIx) :
    (evaluateTrip plainly need s).work i = s.work i := by rw [evaluateTrip_quiet need h]; rfl

theorem evaluateTrip_quiet_bank (need : State → List Nat) (h : NoTripDue s) :
    (evaluateTrip plainly need s).bank = s.bank := by rw [evaluateTrip_quiet need h]

end Quiet

/-! ### Taking a MODE request -/

section ModeRequests

variable {r : Request} {s t u : State} {c : Instr} {m : BankMode} {st : Status} {onward : State → State}

theorem modeFirst (grown : (setMode m s).events.queue <+: t.events.queue) : ModeEventFirst s m t := by
  intro room
  have raised := raise_queue .mode 0 none (some (m.code + 16 * s.bank.mode.code))
    (s := { s with bank := { s.bank with mode := m, isolation := m = .running } }) room
  have queue : (setMode m s).events.queue = _ := raised
  rw [queue] at grown
  exact first_of_grown grown

/-- The operation byte of a MODE frame that is its row's own. -/
theorem modeRow_act {k : Nat} {b : Byte} (act : State → Answer) (hb : b.toNat = k) (p : Port) (s : State) :
    (modeRow k act).act plain p [b] s = act s := if_pos hb

variable {k : Nat} {act : State → Answer} {b : Byte}

/-- A MODE request that changes nothing is answered with its status alone. -/
theorem exec_mode_same (hc : requestOf c = some (modeRow k act, r)) (h : TakenControl r s) (hb : r.body = [b])
    (hk : b.toNat = k) (ha : act (received .control s) = ⟨received .control s, st, [], none, id, false⟩) :
    exec c s = .next (replied .control 0x18 [st.code] none s) :=
  exec_stored (row := modeRow k act) (onward := id) hc rfl h (by rw [hb]; rfl)
    (by rw [hb, modeRow_act act hk]; exact ha) (received_clean h)

theorem exec_mode_stored (hc : requestOf c = some (modeRow k act, r)) (h : TakenControl r s) (hb : r.body = [b])
    (hk : b.toNat = k) (ha : act (received .control s) = ⟨t, st, [], none, onward, false⟩) (ht : (onward t).memory.Clean) :
    exec c s = .next (answeredWith 0x18 st (onward t)) :=
  exec_stored (row := modeRow k act) hc rfl h (by rw [hb]; rfl) (by rw [hb, modeRow_act act hk]; exact ha) ht

theorem exec_mode_evaluated (hc : requestOf c = some (modeRow k act, r)) (h : TakenControl r s) (hb : r.body = [b])
    (hk : b.toNat = k) (ha : act (received .control s) = ⟨t, st, [], none, onward, true⟩) (ht : (onward t).memory.Clean) :
    exec c s = .next (answeredWith 0x18 st (evaluateTrip plainly noWords (onward t))) :=
  exec_evaluated (row := modeRow k act) hc rfl h (by rw [hb]; rfl) (by rw [hb, modeRow_act act hk]; exact ha) ht

/-- What every change of mode leaves, from `s` with the request taken. -/
structure ModeChanged (s : State) (m : BankMode) (u : State) : Prop where
  part : PartChange s u
  apart : Apart s u
  mode : u.bank.mode = m
  isolation : u.bank.isolation = true ↔ m = .running
  first : (setMode m s).events.queue <+: u.events.queue

theorem ModeChanged.of_table (h : TableChange (setMode m s) u) (grown : (setMode m s).events.queue <+: u.events.queue) :
    ModeChanged s m u where
  part := (setMode_part s m).trans (.ofTable h)
  apart := Apart.trans (t := setMode m s) ⟨rfl, rfl, rfl, rfl⟩ (.of_table h)
  mode := by rw [h.bank]; rfl
  isolation := by rw [h.bank]; exact setMode_isolation s m
  first := grown

/-- Further changes of the table, and of the trip unit, keep what a change of mode has left. -/
theorem ModeChanged.then (h : ModeChanged s m t) (part : PartChange t u) (apart : Apart t u) (bank : u.bank = t.bank)
    (grown : t.events.queue <+: u.events.queue) : ModeChanged s m u where
  part := h.part.trans part
  apart := h.apart.trans apart
  mode := by rw [bank]; exact h.mode
  isolation := by rw [bank]; exact h.isolation
  first := h.first.trans grown

theorem leaveTripped_changed (m : BankMode) (s : State) : ModeChanged s m (leaveTripped (setMode m s)) where
  part := (setMode_part s m).trans ⟨rfl, fun _ => rfl⟩
  apart := ⟨rfl, rfl, rfl, rfl⟩
  mode := rfl
  isolation := setMode_isolation s m
  first := List.prefix_refl _

/-- A change of mode as the request's answer leaves it. -/
theorem ModeChanged.becomes {more : State → Prop} (h : ModeChanged (received .control s) m u)
    (ran : exec c s = .next (answeredWith 0x18 .ok u)) (further : more (answeredWith 0x18 .ok u)) :
    ∃ t, exec c s = .next t ∧ Answered 0x18 .ok t ∧
      t.bank.mode = m ∧ (t.bank.isolation = true ↔ m = .running) ∧ t.bank.roundTimer = s.bank.roundTimer ∧
      ModeEventFirst s m t ∧ Kept s t ∧ t.pins = s.pins ∧ t.elapsed = s.elapsed ∧ t.measure = s.measure ∧
      t.balancer = s.balancer ∧ t.link = s.link ∧ more t := by
  have first : ModeEventFirst s m (answeredWith 0x18 .ok u) := modeFirst (s := s) h.first
  exact ⟨_, ran, answeredWith_answered _ _ _, h.mode, h.isolation, h.apart.roundTimer, first, h.part.kept,
    h.part.silent.2.2.2, h.part.elapsed, h.apart.measure, h.apart.balancer, h.apart.link, further⟩

end ModeRequests

/-! ### RUN and STOP (R151 to R153, R156) -/

section RunStop

variable {r : Request} {s : State} {b : Byte}

theorem startSampler_phase (s : State) : (startSampler plain s).sampler.phase ≠ .stopped := by
  unfold startSampler
  split
  case isFalse awake => exact awake
  case isTrue =>
    split
    · exact fun e => nomatch e
    · rcases select_phase (s := { s with sampler := { s.sampler with phase := .idle } }) rfl with e | e <;>
        exact fun e' => nomatch e.symm.trans e'

theorem handRun_eq (s : State) : handRun plainly s = startSampler plain (runOrder plain s) := by
  simp only [handRun, plainly_eq]

theorem exec_run (h : TakenControl r s) (hb : r.body = [b]) (hk : b.toNat = 1) (hm : s.bank.mode = .idle) :
    exec (.run r) s =
      .next (answeredWith 0x18 .ok (startSampler plain (runOrder plain (setMode .running (received .control s))))) := by
  have clean : (setMode .running (received .control s)).memory.Clean :=
    show (received .control s).memory.Clean from received_clean h
  have onward := (handRun_clean clean).trans (handRun_eq _)
  rw [← onward]
  refine exec_mode_stored rfl h hb hk ?_ ?_
  · rw [runRequest, show (received .control s).bank.mode = .idle from hm]
    rfl
  · rw [onward]
    exact ((PartChange.ofTable (runOrder_table _)).trans (.ofTable (startSampler_table _))).clean clean

/-- RUN in IDLE. -/
theorem run_changed (s : State) : ModeChanged s .running (startSampler plain (runOrder plain (setMode .running s))) := by
  refine .of_table ((runOrder_table _).trans (startSampler_table _)) ?_
  rw [startSampler_events]
  exact (grown_steady _).runOrder (List.prefix_refl _)

theorem handStop_eq (s : State) : handStop plainly s = stopSampler (stopOrder plain s) := by
  simp only [handStop, plainly_eq]

/-- A STOP leaves the drive empty and the sampler STOPPED (R54, R141, R144). -/
theorem handStop_only (s : State) : handStop plainly s = { s with
    drive := { s.drive with queue := [], motions := [] }
    sampler := { s.sampler with phase := .stopped, inFlight := none } } := by
  rw [handStop_eq, stopOrder_plain]
  rfl

theorem handStop_table (s : State) : TableChange s (handStop plainly s) := by
  rw [handStop_only]
  exact ⟨rfl, fun _ => rfl⟩

theorem handStop_conditions (s : State) : SameConditions s (handStop plainly s) := by
  rw [handStop_only]
  exact ⟨rfl, rfl, rfl, rfl, rfl, rfl, fun _ => rfl, rfl⟩

theorem handStop_events (s : State) : (handStop plainly s).events = s.events := by rw [handStop_only]

theorem exec_stop_running (h : TakenControl r s) (hb : r.body = [b]) (hk : b.toNat = 2) (hm : s.bank.mode = .running) :
    exec (.modeStop r) s = .next (answeredWith 0x18 .ok (handStop plainly (setMode .idle (received .control s)))) := by
  have clean : (setMode .idle (received .control s)).memory.Clean :=
    show (received .control s).memory.Clean from received_clean h
  have onward := handStop_clean clean
  rw [← onward]
  refine exec_mode_stored rfl h hb hk ?_ ?_
  · rw [modeStopRequest, show (received .control s).bank.mode = .running from hm]
    rfl
  · rw [onward]
    exact (PartChange.ofTable (handStop_table _)).clean clean

theorem clearRestartMarks_eq (s : State) : clearRestartMarks plainly s =
    forStations (fun i t => t.setWork i { t.work i with restartMark := false }) s := by
  simp only [clearRestartMarks, plainly_eq]
  rfl

theorem clearRestartMarks_table (s : State) : TableChange s (clearRestartMarks plainly s) := by
  rw [clearRestartMarks_eq]
  exact .forStations (fun i t => setWork_table t i _) s

theorem clearRestartMarks_work (s : State) (i : StationIx) :
    (clearRestartMarks plainly s).work i = { s.work i with restartMark := false } := by
  rw [clearRestartMarks_eq]
  exact forStations_work (f := fun i t => t.setWork i { t.work i with restartMark := false })
    (Q := fun _ a b => b = { a with restartMark := false }) (fun i j t h => setWork_work_other _ _ h)
    (fun i t => setWork_work_same ..) s i

/-- Only the stations are touched. -/
theorem clearRestartMarks_only (s : State) :
    clearRestartMarks plainly s = { s with stations := (clearRestartMarks plainly s).stations } := by
  rw [clearRestartMarks_eq]
  exact forStations_keeps (P := fun t => t = { s with stations := t.stations })
    (fun i t ht => by rw [ht]; rfl) rfl

theorem clearRestartMarks_conditions (s : State) : SameConditions s (clearRestartMarks plainly s) :=
  .of_table (clearRestartMarks_table s) (fun j => by rw [clearRestartMarks_work])
    (by rw [clearRestartMarks_only])

/-- The part behind a STOP in TRIPPED, in front of the evaluation. -/
def stoppedTrip (s : State) : State := handStop plainly (clearRestartMarks plainly (leaveTripped (setMode .idle s)))

theorem stoppedTrip_part (s : State) : PartChange (leaveTripped (setMode .idle s)) (stoppedTrip s) :=
  .ofTable ((clearRestartMarks_table _).trans (handStop_table _))

theorem modeStopRequest_tripped (hm : s.bank.mode = .tripped) (ho : s.trip.output = false) : modeStopRequest s =
    ⟨leaveTripped (setMode .idle s), .ok, [], none, fun t => handStop checked (clearRestartMarks checked t), true⟩ := by
  rw [modeStopRequest, hm]
  dsimp only
  rw [if_neg (by rw [ho]; simp)]
  rfl

theorem exec_stop_tripped (h : TakenControl r s) (hb : r.body = [b]) (hk : b.toNat = 2) (hm : s.bank.mode = .tripped)
    (ho : s.trip.output = false) : exec (.modeStop r) s =
      .next (answeredWith 0x18 .ok (evaluateTrip plainly noWords (stoppedTrip (received .control s)))) := by
  have clean : (leaveTripped (setMode .idle (received .control s))).memory.Clean :=
    show (received .control s).memory.Clean from received_clean h
  have cleared := (PartChange.ofTable (clearRestartMarks_table _)).clean clean
  have onward : handStop checked (clearRestartMarks checked (leaveTripped (setMode .idle (received .control s)))) =
      stoppedTrip (received .control s) := by rw [clearRestartMarks_clean clean, handStop_clean cleared]; rfl
  have settled : (handStop checked (clearRestartMarks checked
      (leaveTripped (setMode .idle (received .control s))))).memory.Clean := by
    rw [onward]
    exact (stoppedTrip_part (received .control s)).clean clean
  rw [← onward]
  refine exec_mode_evaluated (t := leaveTripped (setMode .idle (received .control s)))
    (onward := fun t => handStop checked (clearRestartMarks checked t)) rfl h hb hk
    (modeStopRequest_tripped (s := received .control s) hm ho) settled

/-- A STOP in TRIPPED leaves no trip due where none was due behind the mode. -/
theorem stoppedTrip_quiet (h : functionValue (leaveTripped s) = false ∨ persistenceOf s.settings.trip.persistence ≠ 0) :
    NoTripDue (stoppedTrip s) := by
  have left : SameConditions (leaveTripped s) (leaveTripped (setMode .idle s)) :=
    ⟨rfl, rfl, rfl, rfl, rfl, rfl, fun _ => rfl, rfl⟩
  have conditions : SameConditions (leaveTripped s) (stoppedTrip s) :=
    left.trans ((clearRestartMarks_conditions _).trans (handStop_conditions _))
  rcases h with h | h
  · exact .inl (conditions.functionValue.trans h)
  · refine .inr (.inr ?_)
    have settings : (stoppedTrip s).settings = s.settings := conditions.settings
    rw [settings]
    exact h

/-- The stopped part in terms of the part before. -/
theorem stoppedTrip_only (s : State) : (stoppedTrip s).drive = { s.drive with queue := [], motions := [] } ∧
    (stoppedTrip s).sampler = { s.sampler with phase := .stopped, inFlight := none } ∧
    (stoppedTrip s).trip = (leaveTripped s).trip ∧ (stoppedTrip s).bank = (setMode .idle s).bank ∧
    (stoppedTrip s).events = (setMode .idle s).events ∧
    ∀ i, (stoppedTrip s).work i = { s.work i with restartMark := false } := by
  have work (i : StationIx) := clearRestartMarks_work (leaveTripped (setMode .idle s)) i
  have only := clearRestartMarks_only (leaveTripped (setMode .idle s))
  unfold stoppedTrip
  generalize clearRestartMarks plainly (leaveTripped (setMode .idle s)) = w at only work
  rw [handStop_only]
  refine ⟨?_, ?_, ?_, ?_, ?_, work⟩ <;>
  · rw [only]
    rfl

end RunStop

/-! ### RESUME (R155) -/

section Resume

variable {r : Request} {s : State} {b : Byte}

/-- The part behind a RESUME, in front of the evaluation. -/
def resumed (s : State) : State := handResume plainly (leaveTripped (setMode .running s))

theorem handResume_eq (s : State) : handResume plainly s = forStations (fun i t => restartMarked i plain t) s := by
  simp only [handResume, plainly_eq]

theorem handResume_table (s : State) : TableChange s (handResume plainly s) := by
  rw [handResume_eq]
  exact .forStations (fun i t => restartMarked_table t i) s

theorem resumed_part (s : State) : PartChange (leaveTripped (setMode .running s)) (resumed s) :=
  .ofTable (handResume_table (leaveTripped (setMode .running s)))

theorem resumeRequest_tripped (hm : s.bank.mode = .tripped) (ho : s.trip.output = false) : resumeRequest s =
    ⟨leaveTripped (setMode .running s), .ok, [], none, handResume checked, true⟩ := by
  rw [resumeRequest, hm]
  dsimp only
  rw [if_neg (by rw [ho]; simp)]
  simp only [Answer.evaluated, Answer.andThen, accept, acceptWith]

theorem exec_resume (h : TakenControl r s) (hb : r.body = [b]) (hk : b.toNat = 3) (hm : s.bank.mode = .tripped)
    (ho : s.trip.output = false) : exec (.resume r) s =
      .next (answeredWith 0x18 .ok (evaluateTrip plainly noWords (resumed (received .control s)))) := by
  have clean : (leaveTripped (setMode .running (received .control s))).memory.Clean :=
    show (received .control s).memory.Clean from received_clean h
  have onward : handResume checked (leaveTripped (setMode .running (received .control s))) =
      resumed (received .control s) := handResume_clean clean
  rw [← onward]
  refine exec_mode_evaluated (t := leaveTripped (setMode .running (received .control s))) (onward := handResume checked)
    rfl h hb hk (resumeRequest_tripped (s := received .control s) hm ho) ?_
  rw [onward]
  exact (resumed_part _).clean clean

theorem handResume_conditions (s : State) : SameConditions s (handResume plainly s) := by
  rw [handResume_eq]
  exact forStations_keeps (P := SameConditions s) (fun i t ht => (conditions_steady s).restartMarked ht) (.refl s)

theorem handResume_grows (s : State) : s.events.queue <+: (handResume plainly s).events.queue := by
  rw [handResume_eq]
  exact forStations_keeps (P := fun t => s.events.queue <+: t.events.queue)
    (fun i t ht => (grown_steady s.events.queue).restartMarked ht) (List.prefix_refl _)

theorem resumed_quiet (h : functionValue (leaveTripped s) = false ∨ persistenceOf s.settings.trip.persistence ≠ 0) :
    NoTripDue (resumed s) := by
  have left : SameConditions (leaveTripped s) (leaveTripped (setMode .running s)) :=
    ⟨rfl, rfl, rfl, rfl, rfl, rfl, fun _ => rfl, rfl⟩
  have conditions : SameConditions (leaveTripped s) (resumed s) := left.trans (handResume_conditions _)
  rcases h with h | h
  · exact .inl (conditions.functionValue.trans h)
  · refine .inr (.inr ?_)
    have settings : (resumed s).settings = s.settings := conditions.settings
    rw [settings]
    exact h

theorem restartMarked_plain (i : StationIx) (s : State) : restartMarked i plain s =
    if (s.work i).state = .standby && (s.work i).restartMark then startStation plain i s else s := rfl

theorem startStation_drivable (i : StationIx) (s : State) : Drivable i (startStation plain i s) ↔ Drivable i s := by
  rw [startStation_eq]
  exact ((applyTarget_driven i _ _).drivable i).trans (aimed_drivable.trans (enterState_drivable rfl))

theorem restartMarked_passing {i j : StationIx} (s : State) (h : i ≠ j) : Passing i s (restartMarked j plain s) := by
  rw [restartMarked_plain]
  split
  · exact startStation_passing s h
  · exact .refl i s

/-- What a RESUME makes of a STANDBY station whose position is present (R29). -/
theorem handResume_own {i : StationIx} (hs : (s.work i).state = .standby) (hd : Drivable i s) :
    ((s.work i).restartMark = true →
      ((handResume plainly s).work i).state = .producing ∧ ((handResume plainly s).work i).restartMark = false ∧
      ((handResume plainly s).work i).quarantineCount = 0 ∧
      ((handResume plainly s).work i).target = clampTarget (s.cfg i) .producing (s.cfg i).startOpening) ∧
    ((s.work i).restartMark = false →
      ((handResume plainly s).work i).state = .standby ∧ ((handResume plainly s).work i).target = (s.work i).target) := by
  rw [handResume_eq]
  obtain ⟨u, before, behind⟩ := foldl_visits (f := fun t j => restartMarked j plain t) (R := Passing i) (.refl i)
    (fun h k => h.trans k) (List.nodup_finRange 16) (List.mem_finRange i)
    (fun j _ hj t => restartMarked_passing t (Ne.symm hj)) s
  have seen := before.2 hd
  have here : Drivable i u := before.drivable hd
  have state : (u.work i).state = .standby := seen.state.trans hs
  refine ⟨fun hmark => ?_, fun hmark => ?_⟩
  · have started : restartMarked i plain u = startStation plain i u :=
      if_pos (Bool.and_eq_true_iff.2 ⟨decide_eq_true state, seen.restartMark.trans hmark⟩)
    obtain ⟨stands, target, count, -, mark⟩ := startStation_own i u
    rw [started] at behind
    have reported := behind.2 ((startStation_drivable i u).2 here)
    refine ⟨reported.state.trans (stands.resolve_right fun absent => absent.1 here), reported.restartMark.trans mark,
      reported.quarantineCount.trans count, reported.target.trans ?_⟩
    rw [target here, before.1.cfg]
  · have left : restartMarked i plain u = u := by
      rw [restartMarked_plain, seen.restartMark, hmark, Bool.and_false]
      rfl
    have behind : Passing i u ((allStations).foldl (fun t j => restartMarked j plain t) s) := left ▸ behind
    have reported := seen.trans (behind.2 here)
    exact ⟨reported.state.trans hs, reported.target⟩

end Resume

end Sys2Proof.Proofs
end

section
/-! The MODE requests and the trip, settled (R28, R29, R151 to R157, R169 to R174). -/

namespace Sys2Proof.Proofs

open Sys2Proof Sys2Proof.Machine Sys2Proof.Laws

/-! ### A trip (R170) -/

section Trip

variable {r : Request} {s : State} {b : Byte}

theorem refreshOutput_unit (s : State) : (refreshOutput s).trip = { s.trip with output := functionValue s } := rfl

theorem trip_changed (o : TripOrigin) (s : State) : ModeChanged s .tripped (tripAndRefresh plainly o s) where
  part := tripAndRefresh_part s o
  apart := (trip_apart o s).trans (refreshOutput_apart _)
  mode := by
    rw [tripAndRefresh, refreshOutput_bank, (trip_bank s o).1]
  isolation := by
    rw [tripAndRefresh, refreshOutput_bank, (trip_bank s o).1]
    simp
  first := by
    rw [tripAndRefresh, refreshOutput_events]
    exact (tripUnit_events o s).trans (trip_grows o s)

theorem tripAndRefresh_stoodDown (o : TripOrigin) (s : State) (i : StationIx) :
    StoodDown (s.work i) ((tripAndRefresh plainly o s).work i) := by
  rw [tripAndRefresh, refreshOutput_work]
  exact trip_stoodDown o s i

theorem tripAndRefresh_from (o : TripOrigin) (s : State) : TrippedFrom o s (tripAndRefresh plainly o s) := by
  have changed := trip_changed o s
  have unit : (tripAndRefresh plainly o s).trip = { s.trip with
      output := functionValue (trip plainly o s), latch := latchOf s o, record := some (tripRecordOf s o), timer := none
      line := tripLineFrom s.elapsed s.settings.trip.pulseWidth, linkDrive := latchOf s o = .localTrip } := by
    rw [tripAndRefresh, refreshOutput_unit, (trip_bank s o).2]
  have released : (tripAndRefresh plainly o s).bank.isolation = false := by
    rw [Bool.eq_false_iff]
    exact fun e => nomatch changed.isolation.1 e
  refine ⟨changed.mode, released, by rw [unit], by rw [unit], by rw [unit], by rw [unit], by rw [unit, decide_eq_true_iff],
    fun i => ?_⟩
  have stood := tripAndRefresh_stoodDown o s i
  exact ⟨stood.target, stood.count, stood.active, fun h => (stood.inactive h).1⟩

theorem exec_tripNow (h : TakenControl r s) (hb : r.body = [b]) (hk : b.toNat = 4) (hm : s.bank.mode ≠ .tripped) :
    exec (.tripNow r) s = .next (answeredWith 0x18 .ok (tripAndRefresh plainly .command (received .control s))) := by
  have onward := commandTrip_clean (received_clean h)
  rw [← onward]
  refine exec_mode_stored (t := received .control s) (onward := commandTrip checked) rfl h hb hk (if_neg hm) ?_
  rw [onward]
  exact (tripAndRefresh_part _ _).clean (received_clean h)

theorem latchOf_command (s : State) : latchOf s .command = .localTrip := by simp [latchOf]

theorem exec_persistenceExpiry {started : Nat} (h : Undisturbed s) (ht : s.trip.timer = some started)
    (hm : s.bank.mode ≠ .tripped) : exec .persistenceExpiry s = .next (tripAndRefresh plainly .function
      (passUntil (started + persistenceOf s.settings.trip.persistence) s)) := by
  have good : (passUntil (started + persistenceOf s.settings.trip.persistence) s).memory.Clean := h.2
  refine (perform_powered reachPersistence h.1).trans (congrArg Host.Outcome.next ?_)
  unfold reachPersistence
  rw [ht]
  dsimp only
  rw [if_neg hm, judgeFound_clean _ h.2.1, persistenceReached, checked_clean _ nothing good, nothing_eq]
  refine (if_pos ?_).trans (tripAndRefresh_clean .function good)
  exact Option.isSome_iff_exists.2 ⟨started, ht⟩

/-- Settles O40. -/
theorem tripStandsDown : Obligations.TripStandsDown := by
  unfold Obligations.TripStandsDown
  refine ⟨fun r s h hb hm => ?_, fun s started h ht hm => ?_⟩
  · have changed := trip_changed .command (received .control s)
    have from_ := tripAndRefresh_from .command (received .control s)
    have ran := exec_tripNow h hb rfl hm
    generalize tripAndRefresh plainly .command _ = u at changed from_ ran
    exact ⟨_, ran, answeredWith_answered _ _ _, from_, latchOf_command s, changed.part.kept⟩
  · have changed := trip_changed .function (passUntil (started + persistenceOf s.settings.trip.persistence) s)
    have from_ := tripAndRefresh_from .function (passUntil (started + persistenceOf s.settings.trip.persistence) s)
    have ran := exec_persistenceExpiry h ht hm
    generalize tripAndRefresh plainly .function _ = u at changed from_ ran
    exact ⟨u, ran, from_, modeFirst changed.first,
      changed.part.silent, changed.part.elapsed, changed.apart.measure, changed.apart.balancer, changed.apart.link⟩

end Trip

/-! ### RESUME (R29, R155, R174) -/

section Resume

variable {r : Request} {s : State} {b : Byte}

/-- The part behind a RESUME that trips nothing. -/
theorem resumed_changed (h : NoTripDue (resumed s)) : ModeChanged s .running (evaluateTrip plainly noWords (resumed s)) := by
  have left : ModeChanged s .running (resumed s) := by
    have table := handResume_table (leaveTripped (setMode .running s))
    have grown := handResume_grows (leaveTripped (setMode .running s))
    unfold resumed
    generalize handResume plainly (leaveTripped (setMode .running s)) = u at table grown
    exact (leaveTripped_changed .running s).then (.ofTable table) (.of_table table) table.bank grown
  exact left.then (evaluateTrip_part _ noWords) (evaluateTrip_apart noWords _) (evaluateTrip_quiet_bank noWords h)
    (evaluateTrip_grows noWords _)

theorem resumed_lines (h : NoTripDue (resumed s)) :
    (evaluateTrip plainly noWords (resumed s)).trip.latch = .clear ∧
      (evaluateTrip plainly noWords (resumed s)).trip.line = .released ∧
      (evaluateTrip plainly noWords (resumed s)).trip.linkDrive = false ∧
      (evaluateTrip plainly noWords (resumed s)).trip.record = s.trip.record := by
  obtain ⟨latch, line, drive, record⟩ := evaluateTrip_lines noWords h
  have unit : (resumed s).trip = (leaveTripped s).trip := (handResume_table (leaveTripped (setMode .running s))).trip
  exact ⟨by rw [latch, unit]; rfl, by rw [line, unit]; rfl, by rw [drive, unit]; rfl, by rw [record, unit]; rfl⟩

/-- What the evaluation behind a return from TRIPPED finds, from the request as it is taken. -/
theorem left_received (h : functionValue (leaveTripped s) = false ∨ persistenceOf s.settings.trip.persistence ≠ 0) :
    functionValue (leaveTripped (received .control s)) = false ∨
      persistenceOf (received .control s).settings.trip.persistence ≠ 0 := by
  have same : functionValue (leaveTripped (received .control s)) = functionValue (leaveTripped s) :=
    SameConditions.functionValue ⟨rfl, rfl, rfl, rfl, rfl, rfl, fun _ => rfl, rfl⟩
  rw [same]
  exact h

theorem resumed_own {i : StationIx} (hs : (s.work i).state = .standby) (hp : (s.work i).position.isSome = true) :
    ((s.work i).restartMark = true →
      ((resumed s).work i).state = .producing ∧ ((resumed s).work i).restartMark = false ∧
      ((resumed s).work i).quarantineCount = 0 ∧
      ((resumed s).work i).target = clampTarget (s.cfg i) .producing (s.cfg i).startOpening) ∧
    ((s.work i).restartMark = false →
      ((resumed s).work i).state = .standby ∧ ((resumed s).work i).target = (s.work i).target) :=
  handResume_own (s := leaveTripped (setMode .running s)) hs (.inr hp)

/-- Settles O41: every station but the one looked at passes it by, and at its own place a marked one is started. -/
theorem resumeRestartsMarked : Obligations.ResumeRestartsMarked := by
  unfold Obligations.ResumeRestartsMarked
  intro r s h hb hm ho hq
  have quiet : NoTripDue (resumed (received .control s)) := resumed_quiet (left_received hq)
  obtain ⟨latch, line, drive, record⟩ := resumed_lines quiet
  have part := (resumed_part (received .control s)).trans (evaluateTrip_part _ noWords)
  have ran := exec_resume h hb rfl hm ho
  have work := evaluateTrip_quiet_work noWords quiet
  generalize evaluateTrip plainly noWords _ = u at latch line drive record part ran work
  refine ⟨_, ran, latch, line, drive, record, part.kept, fun i hs hp => ?_⟩
  rw [answeredWith_work, work]
  exact resumed_own (s := received .control s) hs hp

end Resume

/-! ### The table of modes (R151) -/

section Modes

variable {r : Request} {s : State}

/-- STOP in TRIPPED, in front of its evaluation and behind it. -/
theorem stoppedTrip_changed (s : State) : ModeChanged s .idle (stoppedTrip s) := by
  have part := stoppedTrip_part s
  obtain ⟨-, -, -, bank, events, -⟩ := stoppedTrip_only s
  have apart : Apart (leaveTripped (setMode .idle s)) (stoppedTrip s) :=
    .of_table ((clearRestartMarks_table _).trans (handStop_table _))
  generalize stoppedTrip s = u at part bank events apart
  exact (leaveTripped_changed .idle s).then part apart bank (by rw [events]; exact List.prefix_refl _)

theorem stoppedTrip_evaluated (h : NoTripDue (stoppedTrip s)) :
    ModeChanged s .idle (evaluateTrip plainly noWords (stoppedTrip s)) :=
  (stoppedTrip_changed s).then (evaluateTrip_part _ noWords) (evaluateTrip_apart noWords _)
    (evaluateTrip_quiet_bank noWords h) (evaluateTrip_grows noWords _)

theorem stop_changed (s : State) : ModeChanged s .idle (handStop plainly (setMode .idle s)) :=
  .of_table (handStop_table _) (by rw [handStop_events])

/-- Settles O39, by operation and mode. -/
theorem modeRequestsFollowTable : Obligations.ModeRequestsFollowTable := by
  unfold Obligations.ModeRequestsFollowTable
  intro r s h same becomes stopped
  refine ⟨fun hb => ⟨fun hm => ?run, fun hm => ?running, fun hm => ?tripped⟩,
    fun hb => ⟨fun hm => ?idle, fun hm => ?stop, fun hm ho => ?present, fun hm ho hq => ?leave⟩,
    fun hb => ⟨fun hm => ?resumeRefused, fun hm ho => ?resumePresent, fun hm ho hq => ?resume⟩,
    fun hb => ⟨fun hm => ?trip, fun hm => ?tripRefused⟩⟩
  case run =>
    have changed := run_changed (received .control s)
    have awake := startSampler_phase (runOrder plain (setMode .running (received .control s)))
    have ran := exec_run h hb rfl hm
    generalize startSampler plain _ = u at changed awake ran
    exact changed.becomes (more := fun t => t.sampler.phase ≠ .stopped) ran awake
  case running =>
    exact exec_mode_same (st := .ok) rfl h hb rfl (by rw [runRequest, show (received .control s).bank.mode = .running from hm]; rfl)
  case tripped =>
    exact exec_mode_same (st := .wrongMode) rfl h hb rfl
      (by rw [runRequest, show (received .control s).bank.mode = .tripped from hm]; rfl)
  case idle =>
    exact exec_mode_same (st := .ok) rfl h hb rfl (by rw [modeStopRequest, show (received .control s).bank.mode = .idle from hm]; rfl)
  case stop =>
    have changed := stop_changed (received .control s)
    have only := handStop_only (setMode .idle (received .control s))
    have ran := exec_stop_running h hb rfl hm
    generalize handStop plainly _ = u at changed only ran
    refine changed.becomes (more := fun t => stopped t ∧ t.stations = s.stations ∧ t.trip = s.trip) ran ?_
    rw [only]
    exact ⟨⟨rfl, rfl⟩, rfl, rfl⟩
  case present =>
    refine exec_mode_same (st := .conditionPresent) rfl h hb rfl ?_
    rw [modeStopRequest, show (received .control s).bank.mode = .tripped from hm]
    exact if_pos ho
  case leave =>
    have quiet : NoTripDue (stoppedTrip (received .control s)) := stoppedTrip_quiet (left_received hq)
    have changed := stoppedTrip_evaluated quiet
    obtain ⟨latch, line, drive, record⟩ := evaluateTrip_lines noWords quiet
    have only := evaluateTrip_quiet noWords quiet
    have work := evaluateTrip_quiet_work noWords quiet
    obtain ⟨hdrive, hsampler, unit, -, -, hwork⟩ := stoppedTrip_only (received .control s)
    have ran := exec_stop_tripped h hb rfl hm ho
    generalize evaluateTrip plainly noWords _ = u at changed latch line drive record only work ran
    generalize stoppedTrip (received .control s) = v at latch line drive record only work hdrive hsampler unit hwork
    refine changed.becomes (more := fun t => stopped t ∧ t.trip.latch = .clear ∧ t.trip.line = .released ∧
      t.trip.linkDrive = false ∧ t.trip.record = s.trip.record ∧ ∀ i, t.work i = { s.work i with restartMark := false }) ran
      ⟨⟨?_, ?_⟩, ?_, ?_, ?_, ?_, fun i => (work i).trans (hwork i)⟩
    · exact (congrArg State.drive only).trans hdrive
    · exact (congrArg State.sampler only).trans hsampler
    · exact latch.trans (congrArg TripUnit.latch unit)
    · exact line.trans (congrArg TripUnit.line unit)
    · exact drive.trans (congrArg TripUnit.linkDrive unit)
    · exact record.trans (by rw [unit]; rfl)
  case resumeRefused =>
    refine exec_mode_same (st := .wrongMode) rfl h hb rfl ?_
    rcases hm with hm | hm <;> rw [resumeRequest, show (received .control s).bank.mode = _ from hm] <;> rfl
  case resumePresent =>
    refine exec_mode_same (st := .conditionPresent) rfl h hb rfl ?_
    rw [resumeRequest, show (received .control s).bank.mode = .tripped from hm]
    exact if_pos ho
  case resume =>
    have quiet : NoTripDue (resumed (received .control s)) := resumed_quiet (left_received hq)
    have changed := resumed_changed quiet
    obtain ⟨latch, -⟩ := resumed_lines quiet
    have ran := exec_resume h hb rfl hm ho
    generalize evaluateTrip plainly noWords _ = u at changed latch ran
    exact changed.becomes (more := fun t => t.trip.latch = .clear) ran latch
  case trip =>
    have changed := trip_changed .command (received .control s)
    obtain ⟨-, -, latch, -⟩ := tripAndRefresh_from .command (received .control s)
    have ran := exec_tripNow h hb rfl (by rcases hm with hm | hm <;> simp [hm])
    generalize tripAndRefresh plainly .command _ = u at changed latch ran
    refine changed.becomes (more := fun t => t.trip.latch ≠ .clear) ran ?_
    have tripped : u.trip.latch = .localTrip := latch.trans (latchOf_command _)
    exact fun e => nomatch tripped.symm.trans e
  case tripRefused =>
    exact exec_mode_same (st := .wrongMode) rfl h hb rfl (if_pos hm)

end Modes

end Sys2Proof.Proofs
end

section
/-! Fault reports seen from their station and from another (R25, R26, R33). -/

namespace Sys2Proof.Proofs

open Sys2Proof Sys2Proof.Machine Sys2Proof.Laws

section Faults

variable {s t : State} {i j : StationIx} {c : FaultCause}

/-- The working part of a station that has been faulted: at target 0, its position and its records as they were. -/
structure Faulted (c : FaultCause) (a b : StationWork) : Prop where
  state : b.state = .faulted c
  target : b.target = 0
  position : b.position = a.position
  quality : b.quality = a.quality
  flow : b.flow = a.flow

/-- What the drive makes of a station that is neither at rest in STANDBY nor sampled is a report alone: no stall is taken. -/
theorem Driven.reported_out (h : Driven s t) (hs : (s.work i).state ≠ .standby) (ha : (s.work i).state.active = false) :
    Reported (s.work i) (t.work i) :=
  (h.work i).resolve_right fun k => k.2.taken.elim hs fun e => by simp [ha] at e

theorem Faulted.reported {a b b' : StationWork} (h : Faulted c a b) (k : Reported b b') : Faulted c a b' :=
  ⟨k.state.trans h.state, k.target.trans h.target, k.position.trans h.position, k.quality.trans h.quality,
    k.flow.trans h.flow⟩

theorem Faulted.inactive {a b : StationWork} (h : Faulted c a b) : b.state.active = false := by rw [h.state]; rfl

theorem Faulted.driven {a : StationWork} (h : Faulted c a (s.work i)) (k : Driven s t) : Faulted c a (t.work i) :=
  h.reported (k.reported_out (by rw [h.state]; exact fun e => nomatch e) h.inactive)

/-- A fault whose valve can be driven, at its own station (R26). -/
theorem driveFault_own (i : StationIx) (c : FaultCause) (s : State) : Faulted c (s.work i) ((driveFault plain i c s).work i) := by
  have entered : (enterState plain i (.faulted c) faultFields StationWork.faulted s).work i =
      { (s.work i).faulted with state := .faulted c } := enterState_work_same ..
  unfold driveFault
  dsimp only
  split
  case isTrue zero =>
    have here : Faulted c (s.work i) ((enterState plain i (.faulted c) faultFields StationWork.faulted s).work i) :=
      ⟨by rw [entered], zero, by rw [entered]; rfl, by rw [entered]; rfl, by rw [entered]; rfl⟩
    exact here.driven (moveRequest_driven ..)
  case isFalse =>
    obtain ⟨e, g, -, hw⟩ := aimed_work_same i 0 (enterState plain i (.faulted c) faultFields StationWork.faulted s)
    rw [entered] at hw
    have here : Faulted c (s.work i) ((aimed i 0 (enterState plain i (.faulted c) faultFields StationWork.faulted s)).work i) := by
      refine ⟨?_, ?_, ?_, ?_, ?_⟩ <;> rw [hw] <;> rfl
    exact here.driven (applyTarget_driven ..)

/-- A fault whose valve cannot be driven, at its own station (R26). -/
theorem haltFault_own (i : StationIx) (c : FaultCause) (s : State) : Faulted c (s.work i) ((haltFault plain i c s).work i) := by
  rw [haltFault, withdraw_plain]
  change Faulted c (s.work i) ((enterState plain i _ _ _ s).work i)
  rw [enterState_work_same]
  exact ⟨rfl, rfl, rfl, rfl, rfl⟩

/-- A fault that is taken, at its own station (R25, R26). -/
theorem faultReport_own (h : faultTaken c (s.work i).state (motionStatus s i) = true) :
    Faulted c (s.work i) ((faultReport plain i c s).work i) := by
  rw [faultReport_plain, if_pos h]
  cases c
  case flowLine => exact driveFault_own ..
  case sampleLine => exact driveFault_own ..
  case record => exact driveFault_own ..
  all_goals exact (haltFault_own i _ s).driven (grantTest_driven _)

theorem faultReport_none (h : faultTaken c (s.work i).state (motionStatus s i) = false) : faultReport plain i c s = s := by
  rw [faultReport_plain, h]
  rfl

/-- The sampler gives up a sampled station that has been faulted (R35, R75). -/
theorem driveFault_unclaimed (h : (s.work i).state.active = true) : Unclaimed i (driveFault plain i c s).sampler := by
  have left := (enterState_left (s := s) (i := i) (new := .faulted c) faultFields StationWork.faulted h rfl).1
  have inactive : ((enterState plain i (.faulted c) faultFields StationWork.faulted s).work i).state.active = false := by
    rw [enterState_work_same]
    rfl
  unfold driveFault
  dsimp only
  split
  · exact (moveRequest_driven i 0 _).sampler.unclaimed inactive left
  · refine (applyTarget_driven i 0 _).sampler.unclaimed ?_ (by rwa [aimed_sampler])
    rw [aimed_state]
    exact inactive

end Faults

end Sys2Proof.Proofs
end

section
/-! The course of a sample (R67 to R76): changeover, readings, failed lines and spare lines. -/

namespace Sys2Proof.Proofs

open Sys2Proof Sys2Proof.Machine Sys2Proof.Laws

/-! ### Taking a reading (R68, R69) -/

section Readings

variable {s t : State} {m : Sample} {c o : Nat} {first fault : Bool}

/-- The sampler is at the instant of a reading of the sample in flight, the first or a further one. -/
def ReadingDue (m : Sample) (first : Bool) (s : State) : Prop :=
  if first then s.sampler.phase = .purging ∧ m.start.isSome = true else s.sampler.phase = .reading

/-- The part as a reading finds it. -/
def atReading (m : Sample) (s : State) : State :=
  { passUntil m.due s with sampler := { s.sampler with phase := .reading } }

theorem exec_firstReading {flow : Bool} (h : Undisturbed s) (hm : s.sampler.inFlight = some m)
    (hp : s.sampler.phase = .purging) (hs : m.start.isSome = true) :
    exec (.purgeEnd flow fault) s = .next (judge s
      (if flow then takeReading checked m fault (atReading m s) else noSampleFlow checked m (atReading m s))) := by
  refine (perform_powered (endPurge flow fault) h.1).trans (congrArg Host.Outcome.next ?_)
  unfold endPurge
  rw [hp, hm]
  exact if_pos hs

theorem exec_reading (h : Undisturbed s) (hm : s.sampler.inFlight = some m) (hd : ReadingDue m first s) :
    exec (if first then .purgeEnd true fault else .reading fault) s =
      .next (judge s (takeReading checked m fault (atReading m s))) := by
  cases first with
  | true => exact exec_firstReading h hm hd.1 hd.2
  | false =>
    have hp : s.sampler.phase = .reading := hd
    have same : atReading m s = passUntil m.due s := by
      unfold atReading
      rw [← hp]
      rfl
    refine (perform_powered (nextReading fault) h.1).trans (congrArg Host.Outcome.next ?_)
    unfold nextReading
    rw [hp, hm, same]
    rfl

/-- The sample with one valid reading more. -/
def summed (m : Sample) (c o : Nat) (s : State) : Sample :=
  { m with
    taken := m.taken + 1, methaneSum := m.methaneSum + c, oxygenSum := m.oxygenSum + o
    saturated := m.saturated || analyserSaturated 33 s || analyserSaturated 34 s, due := s.elapsed + Config.readingGap }

theorem takeReading_valid (run : Reader) (hc : analyserValue 33 s = some c) (ho : analyserValue 34 s = some o) :
    takeReading run m false s =
      if m.readings ≤ m.taken + 1 then completeSample run (summed m c o s) s
      else { s with sampler := { s.sampler with phase := .reading, inFlight := some (summed m c o s) } } := by
  unfold takeReading
  rw [hc, ho]
  rfl

theorem takeReading_invalid (run : Reader) (h : fault = true ∨ analyserValue 33 s = none ∨ analyserValue 34 s = none) :
    takeReading run m fault s = countInvalid run (discardSample s) := by
  unfold takeReading
  split
  case h_1 hc ho =>
    rcases h with h | h | h
    · exact nomatch h
    · rw [hc] at h; exact nomatch h
    · rw [ho] at h; exact nomatch h
  case h_2 => rfl

/-- An evaluation behind a change that no condition sees leaves the rest as it was. -/
theorem quiet_of_conditions (h : SameConditions s t) (hb : t.bank = s.bank) (hq : NoTripDue s) :
    evaluateTrip plainly noWords t = { t with trip := (evaluateTrip plainly noWords t).trip } :=
  evaluateTrip_quiet noWords (h.noTripDue (by rw [hb]) hq)

theorem countInvalid_clean (h : s.memory.Clean) : countInvalid checked s = countInvalid plainly s := by
  unfold countInvalid
  dsimp only
  split
  · exact selectNow_clean (s := { s with sampler := { s.sampler with faultCount := min (s.sampler.faultCount + 1) 3 } }) h
  · exact checked_clean _ _ (s := { s with sampler := { s.sampler with faultCount := min (s.sampler.faultCount + 1) 3 } }) h

/-- The state behind the count of an invalid reading. -/
def invalidCounted (s : State) : State :=
  { s with sampler := { s.sampler with faultCount := min (s.sampler.faultCount + 1) 3 } }

theorem countInvalid_few (h : s.sampler.faultCount < 2) : countInvalid plainly s = select (invalidCounted s) :=
  if_pos (show min (s.sampler.faultCount + 1) 3 < 3 by omega)

theorem countInvalid_third (h : 2 ≤ s.sampler.faultCount) : countInvalid plainly s = invalidPause (invalidCounted s) :=
  if_neg (show ¬ min (s.sampler.faultCount + 1) 3 < 3 by omega)

theorem countInvalid_table (s : State) : TableChange s (countInvalid plainly s) := by
  have counted : TableChange s (invalidCounted s) := .ofSampler rfl
  rcases Nat.lt_or_ge s.sampler.faultCount 2 with h | h
  · rw [countInvalid_few h]
    exact counted.trans (select_table _)
  · rw [countInvalid_third h]
    exact counted.trans (.trans (t := pauseSampler (invalidCounted s)) (.ofSampler rfl) (raise_table ..))

/-- What an invalid reading leaves of the sampler (R71). -/
theorem countInvalid_sampler (hi : s.sampler.phase = .idle) :
    (countInvalid plainly s).sampler.faultCount = min (s.sampler.faultCount + 1) 3 ∧
      (countInvalid plainly s).sampler.marks = s.sampler.marks ∧ (countInvalid plainly s).sampler.phase ≠ .stopped ∧
      (2 ≤ s.sampler.faultCount → (countInvalid plainly s).sampler.phase = .paused ∧
        (countInvalid plainly s).sampler.inFlight = none ∧ (countInvalid plainly s).sampler.analyserFault = true) ∧
      (s.sampler.faultCount < 2 → (countInvalid plainly s).sampler.phase ≠ .paused) := by
  rcases Nat.lt_or_ge s.sampler.faultCount 2 with h | h
  · rw [countInvalid_few h]
    have stands := select_stands (invalidCounted s)
    refine ⟨stands.faultCount, stands.marks, ?_, fun e => absurd h (Nat.not_lt.2 e), fun _ => ?_⟩ <;>
      rcases select_phase (s := invalidCounted s) hi with e | e <;> exact fun e' => nomatch e.symm.trans e'
  · rw [countInvalid_third h]
    exact ⟨rfl, rfl, fun e => (nomatch e), fun _ => ⟨rfl, rfl, rfl⟩, fun e => absurd h (Nat.not_le.2 e)⟩

end Readings

/-! ### No sample flow (R73, R74) -/

section NoFlow

variable {s t : State} {m : Sample} {i : StationIx} {failed : Line} {l : SpareLine}

theorem lineFailed_plain (i : StationIx) (failed : Line) (s : State) : lineFailed i failed plain s =
    match substitute s i failed with
    | some l => addDemand plain i (raise .substituted (stationNumber i) none (some l.line.val) (claimSpare i l s))
    | none => if (s.work i).state.active then faultReport plain i .sampleLine s else s := rfl

theorem claimSpare_samplerOnly (i : StationIx) (l : SpareLine) (s : State) : SamplerOnly s (claimSpare i l s) := by
  cases l <;> rfl

theorem lineFailed_table (i : StationIx) (failed : Line) (s : State) : TableChange s (lineFailed i failed plain s) := by
  rw [lineFailed_plain]
  split
  · exact (TableChange.ofSampler (claimSpare_samplerOnly ..)).trans ((raise_table ..).trans (addDemand_table ..))
  · exact .ite (fun _ => faultReport_table ..) fun _ => .refl s

/-- What no sample flow makes of the part, up to the selection behind it. -/
def flowLost (m : Sample) (s : State) : State :=
  match m.source.station? with
  | some i => lineFailed i m.line plain (discardSample (failLine m s))
  | none => discardSample (failLine m s)

theorem failLine_table (m : Sample) (s : State) : TableChange s (failLine m s) :=
  .trans (t := { s with sampler := { s.sampler with marks := s.sampler.marks.set m.line.val true } }) (.ofSampler rfl)
    (raise_table ..)

theorem flowLost_table (m : Sample) (s : State) : TableChange s (flowLost m s) := by
  have lost := (failLine_table m s).trans (discardSample_table _)
  unfold flowLost
  split
  · exact lost.trans (lineFailed_table ..)
  · exact lost

theorem noSampleFlow_clean (h : s.memory.Clean) : noSampleFlow checked m s = select (flowLost m s) := by
  have lost : (discardSample (failLine m s)).memory.Clean := h
  have after : (flowLost m s).memory.Clean := (PartChange.ofTable (flowLost_table m s)).clean h
  rw [← selectNow_clean after, noSampleFlow, checked_clean noWords _ h, flowLost]
  cases m.source.station? with
  | none => rfl
  | some i => exact congrArg (selectNow checked) (checked_clean noWords (lineFailed i m.line) lost)

/-- A failed line that is a station's own is not a spare line. -/
theorem ownLine_ne_spare (i : StationIx) (l : SpareLine) : (ownLine i).val ≠ l.line.val := by
  have := i.isLt
  cases l
  · change i.val + 1 ≠ 17
    omega
  · change i.val + 1 ≠ 18
    omega

/-- The station may claim a spare line behind the mark of its own exactly where the line stood open to it before. -/
theorem substitute_iff : substitute (discardSample (failLine m s)) i m.line = some l ↔
    (s.work i).state.active = true ∧ SpareOpen s i m.line l := by
  have cfg : (discardSample (failLine m s)).cfg i = s.cfg i := rfl
  have work : (discardSample (failLine m s)).work i = s.work i := rfl
  have free (own : m.line = ownLine i) : spareFree (discardSample (failLine m s)) l = true ↔
      s.sampler.marks[l.line.val] = false ∧ (match l with
        | .line17 => s.sampler.claim17
        | .line18 => s.sampler.claim18) = none := by
    have other := ownLine_ne_spare i l
    rw [← own] at other
    have kept : (s.sampler.marks.set m.line.val true)[l.line.val] = s.sampler.marks[l.line.val] :=
      Vector.getElem_set_ne _ _ other
    cases l
    · change (!(s.sampler.marks.set m.line.val true)[17] && s.sampler.claim17.isNone) = true ↔ _
      rw [show (s.sampler.marks.set m.line.val true)[17] = s.sampler.marks[17] from kept]
      simp [SpareLine.line]
    · change (!(s.sampler.marks.set m.line.val true)[18] && s.sampler.claim18.isNone) = true ↔ _
      rw [show (s.sampler.marks.set m.line.val true)[18] = s.sampler.marks[18] from kept]
      simp [SpareLine.line]
  unfold substitute SpareOpen
  rw [cfg, work]
  cases hl : (s.cfg i).standbyLine with
  | none => simp
  | some l' =>
    dsimp only
    constructor
    · intro found
      split at found
      case isFalse => exact nomatch found
      case isTrue tests =>
        obtain rfl := Option.some.inj found
        simp only [Bool.and_eq_true, decide_eq_true_eq] at tests
        obtain ⟨⟨active, own⟩, open_⟩ := tests
        exact ⟨active, rfl, own, (free own).1 open_⟩
    · rintro ⟨active, same, own, open_⟩
      obtain rfl := Option.some.inj same
      exact if_pos (by simp only [Bool.and_eq_true, decide_eq_true_eq]; exact ⟨⟨active, own⟩, (free own).2 open_⟩)

end NoFlow

end Sys2Proof.Proofs
end

section
/-! The course of a sample (R67 to R76), assembled: what each of its instants leaves. -/

namespace Sys2Proof.Proofs

open Sys2Proof Sys2Proof.Machine Sys2Proof.Laws

/-! ### What a failed line leaves -/

section FailedLine

variable {s t : State} {m : Sample} {i : StationIx} {failed : Line} {l : SpareLine}

theorem events_of_samplerOnly (h : SamplerOnly s t) : t.events = s.events := by rw [h]

theorem claimSpare_stands (i : StationIx) (l : SpareLine) (s : State) : SamplerStands s.sampler (claimSpare i l s).sampler := by
  cases l <;> exact ⟨rfl, rfl, rfl, rfl, rfl, rfl, rfl, id⟩

/-- The station's claim of the spare line, and its event (R74). -/
def substituted (i : StationIx) (l : SpareLine) (s : State) : State :=
  raise .substituted (stationNumber i) none (some l.line.val) (claimSpare i l s)

theorem lineFailed_spare (h : substitute s i failed = some l) :
    lineFailed i failed plain s = addDemand plain i (substituted i l s) := by
  rw [lineFailed_plain, h]
  rfl

theorem lineFailed_unspared (h : substitute s i failed = none) : lineFailed i failed plain s =
    if (s.work i).state.active then faultReport plain i .sampleLine s else s := by
  rw [lineFailed_plain, h]

theorem lineFailed_stands (i : StationIx) (failed : Line) (s : State) :
    SamplerStands s.sampler (lineFailed i failed plain s).sampler := by
  cases h : substitute s i failed with
  | some l =>
    rw [lineFailed_spare h]
    exact (claimSpare_stands i l s).trans (addDemand_stands i (substituted i l s))
  | none =>
    rw [lineFailed_unspared h]
    split
    · exact (stands_steady s.sampler).faultReport .sampleLine (.refl _)
    · exact .refl _

theorem substituted_grows (i : StationIx) (l : SpareLine) (s : State) :
    s.events.queue <+: (substituted i l s).events.queue := by
  rw [show s.events = (claimSpare i l s).events from (events_of_samplerOnly (claimSpare_samplerOnly i l s)).symm]
  exact raise_queue_grows ..

theorem lineFailed_grows (i : StationIx) (failed : Line) (s : State) :
    s.events.queue <+: (lineFailed i failed plain s).events.queue := by
  cases h : substitute s i failed with
  | some l =>
    rw [lineFailed_spare h, events_of_samplerOnly (addDemand_samplerOnly i (substituted i l s))]
    exact substituted_grows i l s
  | none =>
    rw [lineFailed_unspared h]
    split
    · exact (grown_steady _).faultReport .sampleLine List.prefix_rfl
    · exact List.prefix_rfl

theorem substituted_event (room : s.events.queue.length < 24) : (substituted i l s).events.queue =
    s.events.queue ++ [⟨.substituted, i.val + 1, none, bankClock s, some l.line.val⟩] := by
  have same : claimSpare i l s = { s with sampler := (claimSpare i l s).sampler } := claimSpare_samplerOnly i l s
  have events : (claimSpare i l s).events = s.events := events_of_samplerOnly same
  have clock : bankClock (claimSpare i l s) = bankClock s := by rw [same]; rfl
  have raised := raise_queue .substituted (stationNumber i) none (some l.line.val) (s := claimSpare i l s)
    (by rw [events]; exact room)
  rw [events, clock] at raised
  exact raised

theorem substituted_line (h : s.sampler.claim17 ≠ some i) : lineInUse (substituted i l s) i = l.line := by
  cases l
  · exact if_pos rfl
  · exact (if_neg h).trans (if_pos rfl)

theorem reselected_line (h : Reselected s t) (i : StationIx) : lineInUse t i = lineInUse s i := by
  unfold lineInUse
  rw [h.claim17, h.claim18]

theorem addDemand_reselected (i : StationIx) (s : State) : Reselected s (addDemand plain i s) := by
  have joined : Reselected s { s with sampler := { s.sampler with demand := s.sampler.demand ++ [i] } } :=
    ⟨rfl, rfl, rfl, rfl, rfl, rfl, rfl, rfl, rfl, rfl⟩
  unfold addDemand
  split
  · exact .refl s
  · split
    · exact joined.trans (select_reselected _)
    · exact .refl s

/-- Where nothing waits, the entry of a sampleable station is sampled at once (R65). -/
theorem addDemand_begins (hp : s.sampler.phase = .idle) (hn : s.sampler.parked = none) (hd : s.sampler.demand = [])
    (hs : sampleable s i = true) : ∃ m, (addDemand plain i s).sampler.inFlight = some m ∧ m.source = .demand i ∧
      m.line = lineInUse s i ∧ (addDemand plain i s).sampler.phase = .purging := by
  rw [addDemand_joins (by rw [hd]; exact List.not_mem_nil) (by rw [hd]; decide),
    select_demand (s := { s with sampler := { s.sampler with demand := s.sampler.demand ++ [i] } }) (i := i) (rest := []) hp hn
      (by simp [hd]) hs]
  exact ⟨_, rfl, rfl, rfl, rfl⟩

end FailedLine

/-! ### What no sample flow leaves (R73, R74) -/

section Lost

variable {s t : State} {m : Sample} {i : StationIx} {l : SpareLine}

/-- The part behind the LINE_FAULT of a sample, with the sampler free. -/
def lineMarked (m : Sample) (s : State) : State := discardSample (failLine m s)

theorem lineMarked_event (room : s.events.queue.length < 24) : (lineMarked m s).events.queue =
    s.events.queue ++ [⟨.lineFault, sourceNumber m.source, none, bankClock s, some m.line.val⟩] :=
  raise_queue .lineFault (sourceNumber m.source) none (some m.line.val)
    (s := { s with sampler := { s.sampler with marks := s.sampler.marks.set m.line.val true } }) room

theorem flowLost_none (h : ∀ i, m.source.station? = some i → (s.work i).state.active = false) :
    flowLost m s = lineMarked m s := by
  unfold flowLost
  split
  case h_1 i hi =>
    have unspared : substitute (lineMarked m s) i m.line = none := by
      cases hl : substitute (lineMarked m s) i m.line with
      | none => rfl
      | some l =>
        have active := (substitute_iff.1 hl).1
        rw [h i hi] at active
        exact nomatch active
    rw [show discardSample (failLine m s) = lineMarked m s from rfl, lineFailed_unspared unspared,
      if_neg (by rw [show (lineMarked m s).work i = s.work i from rfl, h i hi]; exact Bool.false_ne_true)]
  case h_2 => rfl

theorem flowLost_some (h : m.source.station? = some i) : flowLost m s = lineFailed i m.line plain (lineMarked m s) := by
  unfold flowLost
  rw [h]
  rfl

theorem flowLost_stands (m : Sample) (s : State) :
    SamplerStands (lineMarked m s).sampler (flowLost m s).sampler := by
  unfold flowLost
  split
  · exact lineFailed_stands ..
  · exact .refl _

theorem flowLost_grows (m : Sample) (s : State) :
    (lineMarked m s).events.queue <+: (flowLost m s).events.queue := by
  unfold flowLost
  split
  · exact lineFailed_grows ..
  · exact List.prefix_rfl

theorem flowLost_awake (m : Sample) (s : State) : Awake (flowLost m s) := by
  have free : Awake (lineMarked m s) := ⟨⟨fun h => (nomatch h), fun h => by rcases h with h | h <;> exact nomatch h⟩, fun h => (nomatch h)⟩
  unfold flowLost
  split
  · exact lineFailed_keeps awake_steady _ _ free
  · exact free

/-- What no sample flow makes of the part, with the selection behind it. -/
def lostSelected (m : Sample) (s : State) : State := select (flowLost m s)

theorem lostSelected_table (m : Sample) (s : State) : TableChange s (lostSelected m s) :=
  (flowLost_table m s).trans (select_table _)

theorem lostSelected_stands (m : Sample) (s : State) : SamplerStands (lineMarked m s).sampler (lostSelected m s).sampler :=
  (flowLost_stands m s).trans (select_stands _)

theorem lostSelected_grows (m : Sample) (s : State) :
    (lineMarked m s).events.queue <+: (lostSelected m s).events.queue := by
  rw [lostSelected, events_of_samplerOnly (select_samplerOnly _)]
  exact flowLost_grows m s

theorem lostSelected_awake (m : Sample) (s : State) : (lostSelected m s).sampler.phase ≠ .stopped :=
  (awake_steady.select (flowLost_awake m s)).2

theorem lostSelected_work (m : Sample) (s : State) (j : StationIx) : (lostSelected m s).work j = (flowLost m s).work j := by
  rw [lostSelected, select_samplerOnly]
  rfl

/-- A station that is neither PRODUCING nor QUARANTINED, and the reference, leave the table as it was (R74). -/
theorem lostSelected_none (h : ∀ i, m.source.station? = some i → (s.work i).state.active = false) :
    (lostSelected m s).stations = s.stations := by
  rw [lostSelected, flowLost_none h, select_samplerOnly]
  rfl

/-- A station that has claimed an unmarked spare line may be sampled (R63). -/
theorem substituted_sampleable (active : (s.work i).state.active = true) (own : m.line = ownLine i)
    (unmarked : s.sampler.marks[l.line.val] = false) (h17 : s.sampler.claim17 ≠ some i) :
    sampleable (substituted i l (lineMarked m s)) i = true := by
  have line := substituted_line (l := l) (s := lineMarked m s) (i := i) h17
  have other : m.line.val ≠ l.line.val := by rw [own]; exact ownLine_ne_spare i l
  have marks : (substituted i l (lineMarked m s)).sampler.marks = s.sampler.marks.set m.line.val true := by cases l <;> rfl
  have work : (substituted i l (lineMarked m s)).work i = s.work i := by cases l <;> rfl
  have clear : (s.sampler.marks.set m.line.val true)[l.line.val] = false :=
    (Vector.getElem_set_ne _ _ other).trans unmarked
  unfold sampleable
  rw [work, active, marks]
  simp only [line, clear, Bool.not_false, Bool.and_self]

/-- A station that claims its spare line leaves the table as it was and samples it where nothing waits (R74). -/
theorem lostSelected_spare (hi : m.source.station? = some i) (active : (s.work i).state.active = true)
    (open_ : SpareOpen s i m.line l) (h17 : s.sampler.claim17 ≠ some i) :
    (lostSelected m s).stations = s.stations ∧ lineInUse (lostSelected m s) i = l.line ∧
      (s.events.queue.length < 23 → (lostSelected m s).events.queue = s.events.queue ++
        [⟨.lineFault, sourceNumber m.source, none, bankClock s, some m.line.val⟩,
          ⟨.substituted, i.val + 1, none, bankClock s, some l.line.val⟩]) ∧
      (s.sampler.demand = [] → s.sampler.parked = none →
        ∃ m', (lostSelected m s).sampler.inFlight = some m' ∧ m'.source = .demand i ∧ m'.line = l.line) := by
  have found : flowLost m s = addDemand plain i (substituted i l (lineMarked m s)) :=
    (flowLost_some hi).trans (lineFailed_spare (substitute_iff.2 ⟨active, open_⟩))
  have reselected : Reselected (substituted i l (lineMarked m s)) (lostSelected m s) := by
    rw [lostSelected, found]
    exact (addDemand_reselected ..).trans (select_reselected _)
  have line := substituted_line (l := l) (s := lineMarked m s) (i := i) h17
  refine ⟨?_, (reselected_line reselected i).trans line, fun room => ?_, fun hd hp => ?_⟩
  · rw [reselected.only]
    cases l <;> rfl
  · have marked := lineMarked_event (m := m) (s := s) (by omega)
    rw [reselected.only]
    refine (substituted_event (by rw [marked]; simp; omega)).trans ?_
    rw [marked]
    exact List.append_assoc ..
  · have opened : sampleable (substituted i l (lineMarked m s)) i = true :=
      substituted_sampleable active open_.2.1 open_.2.2.1 h17
    obtain ⟨m', flight, source, line', phase⟩ := addDemand_begins (s := substituted i l (lineMarked m s))
      (by cases l <;> rfl) (by cases l <;> exact hp) (by cases l <;> exact hd) opened
    refine ⟨m', ?_, source, line'.trans line⟩
    rw [lostSelected, found, select_of_not_free (.inl (by rw [phase]; decide))]
    exact flight

/-- A station with no spare line to claim is faulted and claims none (R74). -/
theorem lostSelected_faulted (hi : m.source.station? = some i) (active : (s.work i).state.active = true)
    (shut : ∀ l, ¬ SpareOpen s i m.line l) :
    Faulted .sampleLine (s.work i) ((lostSelected m s).work i) ∧ Unclaimed i (lostSelected m s).sampler := by
  have unspared : substitute (lineMarked m s) i m.line = none := by
    cases hl : substitute (lineMarked m s) i m.line with
    | none => rfl
    | some l => exact absurd (substitute_iff.1 hl).2 (shut l)
  have found : flowLost m s = faultReport plain i .sampleLine (lineMarked m s) :=
    (flowLost_some hi).trans ((lineFailed_unspared unspared).trans (if_pos active))
  have taken : faultTaken .sampleLine ((lineMarked m s).work i).state (motionStatus (lineMarked m s) i) = true := active
  constructor
  · rw [lostSelected_work, found]
    exact faultReport_own taken
  · have reselected := select_reselected (flowLost m s)
    have left : Unclaimed i (flowLost m s).sampler := by
      rw [found, faultReport_plain, if_pos taken]
      exact driveFault_unclaimed active
    exact ⟨fun e => left.1 (reselected.claim17.symm.trans e), fun e => left.2 (reselected.claim18.symm.trans e)⟩

end Lost

/-! ### The course of a sample -/

section Course

variable {s : State} {m : Sample} {i : StationIx} {l : SpareLine} {first fault : Bool}

theorem exec_changeoverEnd (h : Undisturbed s) (hm : s.sampler.inFlight = some m) (hp : s.sampler.phase = .purging)
    (hs : m.start = none) : exec .changeoverEnd s = .next { s with
      elapsed := max s.elapsed m.due
      sampler := { s.sampler with inFlight := some { m with
        start := some (min (max s.elapsed m.due / 1000) 4294967295), due := max s.elapsed m.due + m.purge * 1000 } } } := by
  refine (perform_powered endChangeover h.1).trans (congrArg Host.Outcome.next ?_)
  unfold endChangeover
  rw [hp, hm]
  exact if_pos (by rw [hs]; rfl)

theorem exec_noSampleFlow (h : Undisturbed s) (hm : s.sampler.inFlight = some m) (hd : ReadingDue m true s) :
    exec (.purgeEnd false fault) s = .next (evaluateTrip plainly noWords (lostSelected m (atReading m s))) := by
  have run := exec_firstReading (flow := false) (fault := fault) h hm hd.1 hd.2
  have clean : (atReading m s).memory.Clean := h.2
  have after : (lostSelected m (atReading m s)).memory.Clean := (PartChange.ofTable (lostSelected_table ..)).clean clean
  rw [if_neg (by decide), noSampleFlow_clean clean] at run
  exact run.trans (congrArg Host.Outcome.next (judge_clean s after))

/-- Behind a failed line that leaves the table as it was, no evaluation trips the bank where none did before. -/
theorem lostSelected_quiet (hq : NoTripDue s) (hs : (lostSelected m (atReading m s)).stations = s.stations) :
    evaluateTrip plainly noWords (lostSelected m (atReading m s)) =
      { lostSelected m (atReading m s) with trip := (evaluateTrip plainly noWords (lostSelected m (atReading m s))).trip } := by
  have table := lostSelected_table m (atReading m s)
  have same : SameConditions (atReading m s) (lostSelected m (atReading m s)) := by
    refine .of_table table (fun j => ?_) (lostSelected_stands m (atReading m s)).condition
    rw [State.work, State.station, hs]
    rfl
  exact quiet_of_conditions same table.bank hq

theorem exec_invalidReading (h : Undisturbed s) (hm : s.sampler.inFlight = some m) (hd : ReadingDue m first s)
    (bad : fault = true ∨ analyserValue 33 s = none ∨ analyserValue 34 s = none) :
    exec (if first then .purgeEnd true fault else .reading fault) s =
      .next (evaluateTrip plainly noWords (countInvalid plainly (discardSample (atReading m s)))) := by
  have clean : (discardSample (atReading m s)).memory.Clean := h.2
  rw [exec_reading h hm hd, takeReading_invalid checked (s := atReading m s) bad, countInvalid_clean clean]
  exact congrArg Host.Outcome.next (judge_clean s ((PartChange.ofTable (countInvalid_table _)).clean clean))

/-- The part behind a valid reading that is not the last. -/
def readOn (m : Sample) (c o : Nat) (s : State) : State :=
  { atReading m s with sampler := { (atReading m s).sampler with
      phase := .reading, inFlight := some (summed m c o (atReading m s)) } }

theorem exec_validReading {c o : Nat} (h : Undisturbed s) (hm : s.sampler.inFlight = some m) (hd : ReadingDue m first s)
    (hc : analyserValue 33 s = some c) (ho : analyserValue 34 s = some o) :
    exec (if first then .purgeEnd true false else .reading false) s = .next (judge s
      (if m.readings ≤ m.taken + 1 then completeSample checked (summed m c o (atReading m s)) (atReading m s)
       else readOn m c o s)) := by
  rw [exec_reading h hm hd, takeReading_valid checked (s := atReading m s) hc ho]
  rfl

/-- Settles O53: a changeover, a reading and a failed line each leave what the lemmas above say, and the evaluation behind them
moves nothing where no trip is due; a station that is faulted stays so in a trip. -/
theorem sampleCourse : Obligations.SampleCourse := by
  unfold Obligations.SampleCourse
  intro s m h hm
  refine ⟨exec_changeoverEnd h hm, fun first c o hc ho more quiet due => ?valid, fun fault due => ?lost,
    fun first fault due bad => ?invalid⟩
  case valid =>
    have run := exec_validReading h hm due hc ho
    rw [if_neg (Nat.not_le.2 more), judge_clean (after := readOn m c o s) s h.2] at run
    have part : PartChange (passUntil m.due s) (readOn m c o s) := ⟨rfl, fun _ => rfl⟩
    rw [evaluateTrip_quiet (s := readOn m c o s) noWords quiet] at run
    exact ⟨_, run, rfl, rfl, rfl, rfl, rfl, part.silent⟩
  case lost =>
    have run := exec_noSampleFlow (fault := fault) h hm due
    have table := lostSelected_table m (atReading m s)
    have stands := lostSelected_stands m (atReading m s)
    have settled {u : State} (hu : u = lostSelected m (atReading m s)) (quiet : NoTripDue s) (hs : u.stations = s.stations) :
        (evaluateTrip plainly noWords u).stations = s.stations := by
      subst hu
      rw [lostSelected_quiet quiet hs]
      exact hs
    have grows := lostSelected_grows m (atReading m s)
    have base : PartChange (passUntil m.due s) (atReading m s) := ⟨rfl, fun _ => rfl⟩
    generalize hu : lostSelected m (atReading m s) = u at run table stands grows
    have marks := evaluateTrip_marks noWords u
    have part := (base.trans (.ofTable table)).trans (evaluateTrip_part u noWords)
    have grown := grows.trans (evaluateTrip_grows noWords u)
    refine ⟨_, run, ?_, marks.count.trans stands.faultCount, part.silent, part.elapsed, fun room => ?_, fun hr quiet => ?_,
      fun i hi => ⟨fun l active open_ quiet h17 h18 => ?_, fun active shut => ?_, fun inactive quiet => ?_⟩⟩
    · rw [marks.marks, stands.marks]
      exact Vector.getElem_set_self ..
    · rw [lineMarked_event (s := atReading m s) room] at grown
      exact first_of_grown grown
    · refine settled hu.symm quiet (hu ▸ lostSelected_none (s := atReading m s) fun i hi => ?_)
      rw [hr] at hi
      exact nomatch hi
    · obtain ⟨stations, line, events, flight⟩ := lostSelected_spare (s := atReading m s) hi active open_ h17
      have alone := lostSelected_quiet quiet stations
      rw [hu] at stations line events flight alone
      rw [alone]
      exact ⟨stations, line, fun room => ⟨[], events room⟩, flight⟩
    · obtain ⟨faulted, left⟩ := lostSelected_faulted (s := atReading m s) hi active shut
      have awake := lostSelected_awake m (atReading m s)
      rw [hu] at faulted left awake
      have unclaimed := (evaluateTrip_sampler noWords awake).unclaimed left
      refine ⟨?_, ?_, unclaimed.1, unclaimed.2⟩
      · rcases evaluateTrip_work noWords u with e | e
        · rw [e, faulted.state]
        · rw [((e i).inactive faulted.inactive).1, faulted.state]
      · rcases evaluateTrip_work noWords u with e | e
        · rw [e, faulted.target]
        · exact (e i).target
    · refine settled hu.symm quiet (hu ▸ lostSelected_none (s := atReading m s) fun j hj => ?_)
      exact (Option.some.inj (hi.symm.trans hj)) ▸ inactive
  case invalid =>
    have run := exec_invalidReading h hm due bad
    have base : PartChange (passUntil m.due s) (discardSample (atReading m s)) := ⟨rfl, fun _ => rfl⟩
    have table := countInvalid_table (discardSample (atReading m s))
    obtain ⟨count, kept, awake, third, few⟩ := countInvalid_sampler (s := discardSample (atReading m s)) rfl
    generalize countInvalid plainly (discardSample (atReading m s)) = u at run table count kept awake third few
    have marks := evaluateTrip_marks noWords u
    have part := (base.trans (.ofTable table)).trans (evaluateTrip_part u noWords)
    have released := evaluateTrip_sampler noWords awake
    refine ⟨_, run, marks.count.trans count, marks.marks.trans kept, part.silent, fun many => ?_, fun low e => ?_⟩
    · obtain ⟨paused, none, condition⟩ := third many
      exact ⟨released.phase.trans paused, released.inFlight.trans none, marks.condition.trans condition⟩
    · exact few low (released.phase.symm.trans e)

end Course

end Sys2Proof.Proofs
end

section
/-! The last reading of a sample (R70, R76 to R78): filed, parked, dropped, or checked against clean air. -/

namespace Sys2Proof.Proofs

open Sys2Proof Sys2Proof.Machine Sys2Proof.Laws

/-! ### What a filed result leaves as the station's quality result (R32) -/

section Quality

variable {s t : State} {i : StationIx} {r : StationResult}

/-- The quality result a filed result becomes (R32, R86). -/
def qualityOf (r : StationResult) (s : State) : QualityResult :=
  ⟨r.c, r.o, r.readings, r.overRange, r.start, bankClock s, areaFor s r, r.line⟩

theorem storeResult_quality (r : StationResult) (s : State) :
    ((storeResult plain r s).work r.station).quality = some (qualityOf r s) := by
  unfold storeResult
  dsimp only [putWork_plain]
  split
  · exact congrArg StationWork.quality (setWork_work_same s r.station _)
  · exact congrArg StationWork.quality (setWork_work_same s r.station _)

/-- A change of state with a new target keeps the quality result, behind a stall too. -/
theorem enterApply_quality {new : StationState} {l : List WorkField} {f : StationWork → StationWork} {requested : Nat}
    (hp : (f (s.work i)).position = (s.work i).position) (hq : (f (s.work i)).quality = (s.work i).quality) :
    ((applyTarget plain i requested (enterState plain i new l f s)).work i).quality = (s.work i).quality := by
  obtain ⟨w, ⟨aimed, -⟩, reported | ⟨-, stalled⟩⟩ := enterApply_own (l := l) (new := new) (requested := requested) hp
  · rw [reported.same, aimed, ← hq]
  · rw [stalled.same, aimed, ← hq]

/-- No transition rule touches the quality result (R88 to R92). -/
theorem applyTransition_quality (i : StationIx) (a : Area) (s : State) :
    ((applyTransition plain i a s).work i).quality = (s.work i).quality := by
  rw [applyTransition_plain]
  split
  · rw [classifyProducing_plain]
    split
    · split
      · exact enterApply_quality rfl rfl
      · exact enterApply_quality
          (s := raise .exhausted (stationNumber i) none (some (exhaustedCount (s.cfg i).quarantineLimit)) s) rfl rfl
    · rfl
  · rw [classifyQuarantined_plain]
    split
    · split
      · exact enterApply_quality rfl rfl
      · rw [setWork_work_same]
    · rw [setWork_work_same]
  · rfl

theorem fileResult_filed (h : sampleable s r.station = true) :
    ((fileResult plainly r s).work r.station).quality = some (qualityOf r s) := by
  rw [fileResult_plainly, if_pos h]
  exact (applyTransition_quality ..).trans (storeResult_quality r s)

theorem fileResult_dropped (h : sampleable s r.station = false) : fileResult plainly r s = s := by
  rw [fileResult_plainly, if_neg (by rw [h]; exact Bool.false_ne_true)]

theorem reselected_sampleable (h : Reselected s t) (i : StationIx) : sampleable t i = sampleable s i := by
  have work : t.work i = s.work i := by rw [h.only]; rfl
  unfold sampleable
  simp only [work, h.marks, reselected_line h i]

theorem evaluateTrip_quality (need : State → List Nat) (s : State) (i : StationIx) :
    ((evaluateTrip plainly need s).work i).quality = (s.work i).quality :=
  (evaluateTrip_work need s).elim (fun h => by rw [h]) fun h => (h i).quality

end Quality

/-! ### The end of a sample (R70) -/

section Completion

variable {s t : State} {m : Sample} {i : StationIx} {r : StationResult} {c o : Nat} {first : Bool}

/-- The part behind the last reading, with the sampler free and no fault counted. -/
def readingsDone (s : State) : State := discardSample { s with sampler := { s.sampler with faultCount := 0 } }

theorem completeSample_station (run : Reader) (h : m.source.station? = some i) :
    completeSample run m s = deliver run (resultOf m i) (readingsDone s) := by
  unfold completeSample
  split
  case h_1 hs => rw [hs] at h; exact nomatch h
  case h_2 hs => rw [hs] at h; exact Option.some.inj h ▸ rfl
  case h_3 hs => rw [hs] at h; exact Option.some.inj h ▸ rfl

theorem completeSample_reference (run : Reader) (h : m.source = .reference) :
    completeSample run m s =
      referenceCheck run (average m.methaneSum m.readings) (average m.oxygenSum m.readings) (readingsDone s) := by
  unfold completeSample
  rw [h]
  rfl

/-- The state behind the check of a reference sample, up to what the check decides (R76). -/
def referenceTaken (c o : Nat) (pass : Bool) (s : State) : State :=
  { s with sampler := { s.sampler with
      lastReference := some ⟨c, o, bankClock s, pass⟩, passCount := 0, referenceDue := false } }

/-- A reference sample against clean air (R76). -/
def airClean (c o : Nat) : Bool := c ≤ 20 && 195 ≤ o

theorem referenceCheck_clean (c o : Nat) (h : s.memory.Clean) : referenceCheck checked c o s =
    if airClean c o then select (referenceTaken c o (airClean c o) s)
    else referenceFails c (referenceTaken c o (airClean c o) s) := by
  have clean : (referenceTaken c o (airClean c o) s).memory.Clean := h
  have failed : checked noWords (fun _ => referenceFails c) (referenceTaken c o (airClean c o) s) =
      referenceFails c (referenceTaken c o (airClean c o) s) := checked_clean _ _ clean
  rw [← selectNow_clean clean, ← failed]
  rfl

theorem referenceFails_table (c : Nat) (s : State) : TableChange s (referenceFails c s) := by
  have paused : TableChange s (pauseSampler (raise .referenceFail 0 none (some c) s)) :=
    (raise_table ..).trans (.ofSampler rfl)
  exact .ite (fun _ => paused) fun _ => paused.trans (raise_table ..)

theorem referenceFails_sampler (c : Nat) (s : State) : (referenceFails c s).sampler =
    { s.sampler with phase := .paused, inFlight := none, analyserFault := true } := by
  unfold referenceFails
  dsimp only
  split <;> rfl

theorem referenceFails_grows (c : Nat) (s : State) :
    (raise .referenceFail 0 none (some c) s).events.queue <+: (referenceFails c s).events.queue := by
  unfold referenceFails
  dsimp only
  split
  · exact List.prefix_rfl
  · exact raise_queue_grows ..

/-- The last valid reading, evaluated behind. -/
theorem exec_lastReading (h : Undisturbed s) (hm : s.sampler.inFlight = some m) (hd : ReadingDue m first s)
    (hc : analyserValue 33 s = some c) (ho : analyserValue 34 s = some o) (last : m.readings ≤ m.taken + 1)
    (done : completeSample checked (summed m c o (atReading m s)) (atReading m s) = t)
    (table : TableChange (readingsDone (atReading m s)) t) :
    exec (if first then .purgeEnd true false else .reading false) s = .next (evaluateTrip plainly noWords t) := by
  have run := exec_validReading h hm hd hc ho
  rw [if_pos last, done] at run
  exact run.trans (congrArg Host.Outcome.next (judge_clean s ((PartChange.ofTable table).clean (show s.memory.Clean from h.2))))

theorem fileResult_stands (r : StationResult) (s : State) :
    SamplerStands s.sampler (fileResult plainly r s).sampler :=
  (stands_steady s.sampler).fileResult (plainly_keeps _) r (.refl _)

/-- What a completed station sample leaves of the sampler, whether it is filed, dropped or parked. -/
theorem deliver_faultCount (r : StationResult) (s : State) :
    (deliver plainly r s).sampler.faultCount = s.sampler.faultCount := by
  unfold deliver
  split
  · rfl
  · exact (fileResult_stands r (select s)).faultCount.trans (select_stands s).faultCount

theorem deliver_filed (hold : s.link.hold = false) (h : sampleable s r.station = true) :
    ((deliver plainly r s).work r.station).quality = some (qualityOf r s) := by
  have free : deliver plainly r s = fileResult plainly r (select s) := if_neg (by rw [hold]; exact Bool.false_ne_true)
  have table := select_table s
  have same : qualityOf r (select s) = qualityOf r s := by
    unfold qualityOf areaFor bankClock
    rw [table.elapsed, table.settings, table.cfg]
  rw [free, fileResult_filed ((reselected_sampleable (select_reselected s) _).trans h), same]

theorem deliver_dropped (hold : s.link.hold = false) (h : sampleable s r.station = false) :
    ((deliver plainly r s).work r.station).quality = (s.work r.station).quality := by
  have free : deliver plainly r s = fileResult plainly r (select s) := if_neg (by rw [hold]; exact Bool.false_ne_true)
  rw [free, fileResult_dropped ((reselected_sampleable (select_reselected s) _).trans h), select_samplerOnly]
  rfl

theorem deliver_parked (hold : s.link.hold = true) :
    deliver plainly r s = { s with sampler := { s.sampler with parked := some r } } := if_pos hold

/-- Settles O54: the result of a station is filed, dropped or parked, that of the reference is checked, and no evaluation
behind it touches a quality result. -/
theorem lastReadingFiles : Obligations.LastReadingFiles := by
  unfold Obligations.LastReadingFiles
  intro s m c o first h hm due hc ho last now meanC meanO overRange
  have clean : (readingsDone (atReading m s)).memory.Clean := h.2
  have base : PartChange (passUntil m.due s) (readingsDone (atReading m s)) := ⟨rfl, fun _ => rfl⟩
  cases hi : m.source.station? with
  | some i =>
    have filing : ∃ r : StationResult, r = ⟨i, meanC, meanO, m.readings, overRange, m.start.getD 0, m.line⟩ := ⟨_, rfl⟩
    obtain ⟨r, hr⟩ := filing
    have done : completeSample checked (summed m c o (atReading m s)) (atReading m s) =
        deliver plainly r (readingsDone (atReading m s)) := by
      rw [completeSample_station checked (m := summed m c o (atReading m s)) hi, deliver_clean _ clean, hr]
      rfl
    have table := deliver_table (readingsDone (atReading m s)) r
    have run := exec_lastReading h hm due hc ho last done table
    have part := (base.trans (.ofTable table)).trans (evaluateTrip_part _ noWords)
    have marks := evaluateTrip_marks noWords (deliver plainly r (readingsDone (atReading m s)))
    have count : (deliver plainly r (readingsDone (atReading m s))).sampler.faultCount = 0 := deliver_faultCount ..
    refine ⟨_, run, part.silent, part.elapsed, marks.count.trans count, fun j hj => ?_, fun reference => ?_⟩
    · obtain rfl := Option.some.inj hj
      have station : r.station = i := by rw [hr]
      refine ⟨fun hold sampled => ?_, fun hold out => ?_, fun hold => ?_⟩
      · have filed := deliver_filed (r := r) (s := readingsDone (atReading m s)) hold (by rw [station]; exact sampled)
        rw [evaluateTrip_quality, ← station, filed, hr]
        rfl
      · have dropped := deliver_dropped (r := r) (s := readingsDone (atReading m s)) hold (by rw [station]; exact out)
        rw [evaluateTrip_quality, ← station, dropped, station]
        rfl
      · have parked : deliver plainly r (readingsDone (atReading m s)) = _ := deliver_parked hold
        have released := evaluateTrip_sampler (s := deliver plainly r (readingsDone (atReading m s))) noWords
          (by rw [parked]; exact fun e => (nomatch e))
        refine ⟨released.phase.trans (by rw [parked]; rfl), released.inFlight.trans (by rw [parked]; rfl),
          marks.parked.trans (by rw [parked, hr]), ?_⟩
        rw [evaluateTrip_quality, parked]
        rfl
    · rw [reference] at hi
      exact nomatch hi
  | none =>
    have reference : m.source = .reference := by
      cases hs : m.source with
      | reference => rfl
      | demand i => rw [hs] at hi; exact nomatch hi
      | sweep i => rw [hs] at hi; exact nomatch hi
    have done : completeSample checked (summed m c o (atReading m s)) (atReading m s) = _ :=
      (completeSample_reference checked (m := summed m c o (atReading m s)) reference).trans (referenceCheck_clean meanC meanO clean)
    have taken : TableChange (readingsDone (atReading m s)) (referenceTaken meanC meanO (airClean meanC meanO)
      (readingsDone (atReading m s))) := .ofSampler rfl
    have pass_iff : airClean meanC meanO = true ↔ meanC ≤ 20 ∧ 195 ≤ meanO := by simp [airClean]
    cases hp : airClean meanC meanO with
    | true =>
      rw [hp, if_pos rfl] at done
      rw [hp] at taken
      have table := taken.trans (select_table _)
      have run := exec_lastReading h hm due hc ho last done table
      have part := (base.trans (.ofTable table)).trans (evaluateTrip_part _ noWords)
      have stands := select_stands (referenceTaken meanC meanO true (readingsDone (atReading m s)))
      have phase := select_phase (s := referenceTaken meanC meanO true (readingsDone (atReading m s))) rfl
      generalize select (referenceTaken meanC meanO true (readingsDone (atReading m s))) = u at run part stands phase
      have marks := evaluateTrip_marks noWords u
      have released := evaluateTrip_sampler (s := u) noWords (by rcases phase with e | e <;> rw [e] <;> decide)
      refine ⟨_, run, part.silent, part.elapsed, marks.count.trans stands.faultCount, fun _ hj => (nomatch hj),
        fun _ => ⟨true, iff_of_true rfl (pass_iff.1 hp), marks.reference.trans stands.reference, fun _ => ⟨?_,
          marks.condition.trans stands.condition⟩, fun e => nomatch e⟩⟩
      rw [released.phase]
      rcases phase with e | e <;> rw [e] <;> decide
    | false =>
      rw [hp, if_neg Bool.false_ne_true] at done
      rw [hp] at taken
      have table := taken.trans (referenceFails_table meanC _)
      have run := exec_lastReading h hm due hc ho last done table
      have part := (base.trans (.ofTable table)).trans (evaluateTrip_part _ noWords)
      have sampler := referenceFails_sampler meanC (referenceTaken meanC meanO false (readingsDone (atReading m s)))
      have grows := referenceFails_grows meanC (referenceTaken meanC meanO false (readingsDone (atReading m s)))
      generalize referenceFails meanC (referenceTaken meanC meanO false (readingsDone (atReading m s))) = u
        at run part sampler grows
      have marks := evaluateTrip_marks noWords u
      have released := evaluateTrip_sampler (s := u) noWords (by rw [sampler]; exact fun e => nomatch e)
      have failed : ¬ (meanC ≤ 20 ∧ 195 ≤ meanO) := fun ok => nomatch hp.symm.trans (pass_iff.2 ok)
      refine ⟨_, run, part.silent, part.elapsed, marks.count.trans (by rw [sampler]; rfl), fun _ hj => (nomatch hj),
        fun _ => ⟨false, iff_of_false Bool.false_ne_true failed, marks.reference.trans (by rw [sampler]; rfl),
          fun e => (nomatch e), fun _ => ⟨released.phase.trans (by rw [sampler]), released.inFlight.trans (by rw [sampler]),
          marks.condition.trans (by rw [sampler]), by rw [released.only, sampler]; rfl,
          by rw [released.only, sampler]; rfl, fun room => ?_⟩⟩⟩
      have grown := grows.trans (evaluateTrip_grows noWords u)
      rw [raise_queue .referenceFail 0 none (some meanC)
        (s := referenceTaken meanC meanO false (readingsDone (atReading m s))) room] at grown
      exact first_of_grown grown

end Completion

end Sys2Proof.Proofs
end

section
/-! A move in hand (R124): it stays in hand, queued or begun, while the drive works at other stations and grants. -/

namespace Sys2Proof.Proofs

open Sys2Proof Sys2Proof.Machine Sys2Proof.Laws

/-! ### A move that is under way -/

section UnderWay

variable {s t : State} {i j : StationIx} {target : Nat} {e : QueuedMove}

/-- A station away from a target has its move to it in hand: every entry it has in the queue is for that target, and it has an
entry, or a motion to that target. -/
structure UnderWay (i : StationIx) (target : Nat) (s : State) : Prop where
  away : ∃ p, (s.work i).position = some p ∧ within p target Config.deadband = false
  entries : ∀ e ∈ entriesFor s i, e.target = target
  moving : (entriesFor s i ≠ [] ∧ motionOf s i = none) ∨ (motionOf s i).map Motion.target = some target

theorem UnderWay.untouched (h : UnderWay i target s) (k : Untouched i s t) : UnderWay i target t where
  away := by rw [k.work]; exact h.away
  entries := by rw [k.entries]; exact h.entries
  moving := by rw [k.entries, k.motion]; exact h.moving

/-- A motor started for a station leaves its motion where it has one, and else is its motion. -/
theorem startMotor_motionOf {m : Motion} (hm : m.station = i) (s : State) :
    motionOf (startMotor m s) i = (motionOf s i).or (some m) := by
  unfold motionOf startMotor
  rw [List.find?_append, List.find?_cons_of_pos (by simp [hm])]

theorem entriesFor_cons {rest : List QueuedMove} (hq : s.drive.queue = e :: rest) (he : e.station = i) :
    entriesFor s i = e :: entriesFor { s with drive := { s.drive with queue := rest } } i := by
  unfold entriesFor
  rw [hq]
  exact List.filter_cons_of_pos (by simp [he])

/-- A grant of the station's own entry begins its motion toward the target (R128, R130). -/
theorem UnderWay.granted {rest : List QueuedMove} (h : UnderWay i target s) (hq : s.drive.queue = e :: rest)
    (he : e.station = i) :
    UnderWay i target (beginMotion plain e { s with drive := { s.drive with queue := rest } }) := by
  obtain ⟨p, hp, out⟩ := h.away
  have split := entriesFor_cons hq he
  have here : e.target = target := h.entries e (by rw [split]; exact List.mem_cons_self)
  have started (m : Motion) (hm : m.station = i) (ht : m.target = target) :
      UnderWay i target (startMotor m { s with drive := { s.drive with queue := rest } }) := by
    refine ⟨⟨p, hp, out⟩, fun e' he' => h.entries e' ?_, .inr ?_⟩
    · rw [split]
      exact List.mem_cons_of_mem _ he'
    · rw [startMotor_motionOf hm]
      rcases h.moving with ⟨-, none⟩ | some
      · rw [show motionOf { s with drive := { s.drive with queue := rest } } i = motionOf s i from rfl, none]
        exact congrArg _ ht
      · obtain ⟨m', hm', same⟩ := Option.map_eq_some_iff.1 some
        rw [show motionOf { s with drive := { s.drive with queue := rest } } i = motionOf s i from rfl, hm']
        exact congrArg _ same
  rw [beginMotion_plain]
  have hp' : (State.work { s with drive := { s.drive with queue := rest } } e.station).position = some p := by
    rw [he]; exact hp
  rw [hp']
  dsimp only
  rw [here, if_neg (by rw [out]; exact Bool.false_ne_true)]
  split
  · exact started _ he rfl
  · exact started _ he rfl

theorem UnderWay.grantLoop (fuel : Nat) (h : UnderWay i target s) : UnderWay i target (grantLoop plain fuel s) := by
  induction fuel generalizing s with
  | zero => exact h
  | succ fuel ih =>
    rw [grantLoop_plain]
    split
    case h_1 => exact h
    case h_2 e rest hq =>
      split
      · refine ih ?_
        by_cases he : e.station = i
        · exact h.granted hq he
        · exact h.untouched ((popQueue_untouched (Ne.symm he) hq).trans (beginMotion_untouched (i := i) (j := e.station) (Ne.symm he) rfl _))
      · exact h

theorem UnderWay.grantTest (h : UnderWay i target s) : UnderWay i target (grantTest plain s) := h.grantLoop _

/-- A target change of another station leaves the move in hand. -/
theorem UnderWay.applyTarget_other (h : UnderWay i target s) (hj : i ≠ j) (r : Nat) :
    UnderWay i target (applyTarget plain j r s) := by
  rw [applyTarget_plain]
  split
  · exact h
  · have set := setWork_untouched hj { s.work j with
      target := clampTarget (s.cfg j) (s.work j).state r, fresh := false, settleExpiry := none } s
    exact (h.untouched (set.trans (takeMove_untouched hj _ _))).grantTest

/-- A move request of a station at rest away from the target puts a move in hand (R124, R127). -/
theorem moveRequest_underWay {p : Nat} (hq : queued s i = false) (hm : motionOf s i = none)
    (hp : (s.work i).position = some p) (out : within p target Config.deadband = false) :
    UnderWay i target (moveRequest plain i target s) := by
  have away : atOpening s i target = false := by simp [atOpening, hp, out]
  have taken : takeMove plain i target s = queueMove plain i target s := by
    rw [takeMove_plain, hq, hm]
    simp [away]
  have none := not_queued_iff_entries.1 hq
  have joined : entriesFor (queueMove plain i target s) i = [⟨i, target⟩] := by
    have app : entriesFor (queueMove plain i target s) i = entriesFor s i ++ [⟨i, target⟩].filter (fun e => e.station = i) :=
      List.filter_append ..
    rw [app, none]
    simp
  refine UnderWay.grantTest (s := takeMove plain i target s) ?_
  rw [taken]
  refine ⟨⟨p, ?_, out⟩, ?_, .inl ⟨?_, hm⟩⟩
  · rw [(queueMove_steered i target s).position]
    exact hp
  · rw [joined]
    simp
  · rw [joined]
    simp

theorem UnderWay.handed (h : UnderWay i target t) :
    ⟨i, target⟩ ∈ t.drive.queue ∨ (motionOf t i).map Motion.target = some target := by
  rcases h.moving with ⟨some, -⟩ | moving
  · obtain ⟨e, he⟩ := List.exists_mem_of_ne_nil _ some
    have same := h.entries e he
    obtain ⟨mem, station⟩ := List.mem_filter.1 he
    refine .inl ?_
    rw [← same, ← of_decide_eq_true station]
    exact mem
  · exact .inr moving

end UnderWay

end Sys2Proof.Proofs
end

section
/-! The adjustments of a round reach the station table and the drive (R12, R117, R124). -/

namespace Sys2Proof.Proofs

open Sys2Proof Sys2Proof.Machine Sys2Proof.Laws

/-! ### What the work at other stations leaves of a station and its move -/

section Spared

variable {s t u : State} {i j : StationIx} {target r : Nat}

/-- The work at other stations, with the grants behind it: the station is as it was but for a completion, is left alone while
it is not queued, and keeps a move in hand. -/
structure Spared (i : StationIx) (s t : State) : Prop where
  passing : Passing i s t
  untouched : queued s i = false → Untouched i s t
  underWay : ∀ target, UnderWay i target s → UnderWay i target t

theorem Spared.refl (i : StationIx) (s : State) : Spared i s s := ⟨.refl i s, fun _ => .refl i s, fun _ h => h⟩

theorem Spared.trans (h : Spared i s t) (k : Spared i t u) : Spared i s u where
  passing := h.passing.trans k.passing
  untouched hq := (h.untouched hq).trans (k.untouched ((h.untouched hq).queued.trans hq))
  underWay target hw := k.underWay target (h.underWay target hw)

theorem applyTarget_spared (h : i ≠ j) (r : Nat) (s : State) : Spared i s (applyTarget plain j r s) where
  passing := applyTarget_passing r s h
  untouched := applyTarget_untouched h r
  underWay _ hw := hw.applyTarget_other h r

theorem roundChange_spared {a : Adjustment} (h : i ≠ a.station) (s : State) : Spared i s (roundChange a plain s) := by
  rw [roundChange_plain]
  split
  · exact applyTarget_spared h _ s
  · exact .refl i s

/-- A target change of a station at rest hands it a move (R11, R124): completed at once, or under way. -/
theorem applyTarget_inHand {p : Nat} (hq : queued s i = false) (hm : motionOf s i = none)
    (hp : (s.work i).position = some p) (ht : clampTarget (s.cfg i) (s.work i).state r = target)
    (new : target ≠ (s.work i).target) :
    if within p target Config.deadband then ((applyTarget plain i r s).work i).lastMoveDone = some (bankClock s) ∧
      queued (applyTarget plain i r s) i = false
    else UnderWay i target (applyTarget plain i r s) := by
  rw [applyTarget_plain, ht, if_neg new]
  generalize hu : s.setWork i { s.work i with target := target, fresh := false, settleExpiry := none } = u
  have own : u.work i = { s.work i with target := target, fresh := false, settleExpiry := none } := by
    rw [← hu, setWork_work_same]
  have hq : queued u i = false := by rw [← hu]; exact hq
  have hm : motionOf u i = none := by rw [← hu]; exact hm
  have clock : bankClock s = bankClock u := by rw [← hu]; rfl
  have hp : (u.work i).position = some p := by rw [own]; exact hp
  split
  case isTrue near =>
    have at_ : atOpening u i target = true := by simp [atOpening, hp, near]
    have taken : takeMove plain i target u = reportCompleted plain i target u := by
      rw [takeMove_plain, hq, hm]
      simp [at_]
    refine ⟨(moveRequest_completed hq hm at_ (by rw [own])).trans (congrArg some clock.symm), ?_⟩
    have still : queued (takeMove plain i target u) i = false := by
      rw [taken, queued, reportCompleted_drive]
      exact hq
    exact (grantTest_untouched still).queued.trans still
  case isFalse far => exact moveRequest_underWay hq hm hp (Bool.eq_false_iff.2 far)

end Spared

/-! ### Each station is adjusted at most once -/

section Distinct

variable {s : State}

theorem adjustable_station {i : StationIx} {j : Candidate} (h : adjustable s i = some j) : j.station = i := by
  unfold adjustable at h
  split at h
  · split at h
    · obtain rfl := Option.some.inj h
      rfl
    · exact nomatch h
  · exact nomatch h

theorem candidates_nodup (s : State) : ((candidates s).map Candidate.station).Nodup := by
  have sub : ∀ l : List StationIx, ((l.filterMap (adjustable s)).map Candidate.station).Sublist l := by
    intro l
    induction l with
    | nil => exact .refl _
    | cons i rest ih =>
      rw [List.filterMap_cons]
      cases h : adjustable s i with
      | none => exact .cons _ ih
      | some j =>
        dsimp only
        rw [List.map_cons, adjustable_station h]
        exact .cons_cons _ ih
  exact (sub allStations).nodup (List.nodup_finRange 16)

theorem examine_stations (aim : DeficitAim) (r : Running) (j : Candidate) :
    (examine aim r j).adjustments.map Adjustment.station = r.adjustments.map Adjustment.station ∨
      (examine aim r j).adjustments.map Adjustment.station = r.adjustments.map Adjustment.station ++ [j.station] := by
  rcases examine_adjustments aim r j with e | ⟨a, ⟨station, -⟩, e⟩
  · exact .inl (by rw [e])
  · exact .inr (by rw [e, List.map_append, List.map_singleton, station])

theorem deficitLoop_stations (aim : DeficitAim) (l : List Candidate) (r : Running) :
    ((deficitLoop aim l r).1.adjustments.map Adjustment.station).Sublist
      (r.adjustments.map Adjustment.station ++ l.map Candidate.station) := by
  induction l generalizing r with
  | nil =>
    rw [List.map_nil, List.append_nil]
    exact .refl _
  | cons j rest ih =>
    unfold deficitLoop
    split
    · split
      · refine (ih (examine aim r j)).trans ?_
        rcases examine_stations aim r j with e | e
        · rw [e]
          exact (List.Sublist.refl _).append (List.sublist_cons_self ..)
        · rw [e, List.append_assoc]
          exact .refl _
      · exact List.sublist_append_left ..
    · exact List.sublist_append_left ..

/-- No station stands twice in the adjustments of a round (R110, R116). -/
theorem adjustments_nodup (s : State) : ((roundRecord s).adjustments.map Adjustment.station).Nodup := by
  by_cases hf : (totals s).flow = 0
  · rw [roundRecord_noFlow hf]
    exact List.nodup_nil
  by_cases hu : TooUnknown s
  · rw [roundRecord_incomplete hf hu]
    exact List.nodup_nil
  by_cases hm : s.bank.mode = .running
  · by_cases hb : Breached s
    · rw [roundRecord_deficit hf hu hm hb]
      refine (deficitLoop_stations _ (deficitOrder (candidates s)) _).nodup ?_
      rw [List.map_nil, List.nil_append]
      exact ((List.perm_insertionSort _ _).map _).nodup_iff.2 (candidates_nodup s)
    · by_cases hs : Surplus s
      · rw [roundRecord_surplus hf hu hm hb hs]
        split
        · exact List.nodup_singleton _
        · exact List.nodup_nil
      · rw [roundRecord_band hf hu hm hb hs]
        exact List.nodup_nil
  · rw [roundRecord_held hf hu hm]
    exact List.nodup_nil

end Distinct

/-! ### The adjustments of a round at their stations -/

section Reaches

variable {s t u : State} {i j : StationIx} {a : Adjustment}

/-- The computation of a round changes the event unit and the balancer alone (R101). -/
theorem computeRound_only (s : State) : computeRound plain s =
    { s with events := (computeRound plain s).events, balancer := (computeRound plain s).balancer } := by
  have raised : ∀ l : List Adjustment, l.foldl adjustedEvent s = { s with events := (l.foldl adjustedEvent s).events } :=
    fun l => foldl_keeps (P := fun t => t = { s with events := t.events })
      (fun t a h => by rw [adjustedEvent, raise_only, h]) l rfl
  have shortfall (r : RoundRecord) (t : State) : shortfallEvent r t = { t with events := (shortfallEvent r t).events } := by
    unfold shortfallEvent
    split <;> split <;> rfl
  have outcome (r : RoundRecord) (t : State) : outcomeEvent r t = { t with events := (outcomeEvent r t).events } := by
    unfold outcomeEvent
    split
    · rfl
    · split <;> rfl
  unfold computeRound
  dsimp only
  rw [outcome, shortfall, raised]

theorem computeRound_untouched (i : StationIx) (s : State) : Untouched i s (computeRound plain s) := by
  have only := computeRound_only s
  refine .of_table ?_ ?_ <;> rw [only]
  rfl

/-- The new opening of an adjustment stands within the clamp (R10, R111, R116). -/
theorem adjusted_clamped (clamped : TargetsClamped s) (ha : a ∈ (roundRecord s).adjustments) :
    clampTarget (s.cfg a.station) .producing a.new = a.new := by
  obtain ⟨producing, unpinned, -, -, old, downward, upward⟩ := (roundAdjustmentsBounded s).2 a ha
  have before := clamped a.station
  rw [producing] at before
  simp only [clampTarget, unpinned, Bool.false_eq_true, if_false] at before ⊢
  by_cases down : (roundRecord s).purityBreached = true ∨ (roundRecord s).oxygenBreached = true
  · have := downward down
    omega
  · have := upward ⟨Bool.eq_false_iff.2 fun e => down (.inl e), Bool.eq_false_iff.2 fun e => down (.inr e)⟩
    omega

theorem applyTarget_drivable (h : Drivable i s) (r : Nat) : Drivable i (applyTarget plain i r s) := by
  exact ((applyTarget_driven i r s).drivable i).2 (aimed_drivable.2 h)

/-- What the table makes of an adjustment of its station at rest (R12, R124). -/
structure Adjusted (a : Adjustment) (s t : State) : Prop where
  target : (t.work a.station).target = a.new
  fresh : (t.work a.station).fresh = false
  state : (t.work a.station).state = .producing
  handed : MoveHanded a.station s t

theorem roundEvent_adjusts (clamped : TargetsClamped s) (ha : a ∈ (roundRecord s).adjustments) (new : a.new ≠ a.old)
    (hd : Drivable a.station s) : Adjusted a s (roundEvent plainly s) := by
  obtain ⟨producing, unpinned, -, still, old, -⟩ := (roundAdjustmentsBounded s).2 a ha
  obtain ⟨motionless, unqueued⟩ := motionStatus_none_iff.1 still
  have part := computeRound_part s
  have computed := computeRound_untouched a.station s
  obtain ⟨u, before, after⟩ := foldl_visits (f := fun t b => roundChange b plain t) (R := Spared a.station)
    (.refl a.station) .trans (adjustments_nodup s).of_map ha
    (fun b hb ne t => roundChange_spared (fun e => ne (List.inj_on_of_nodup_map (adjustments_nodup s) hb ha e.symm)) t)
    (computeRound plain s)
  rw [← roundEvent_eq] at after
  have free : queued (computeRound plain s) a.station = false := computed.queued.trans unqueued
  have reached := computed.trans (before.untouched free)
  have cfg : u.cfg a.station = s.cfg a.station := (before.passing.1.cfg _).trans (part.cfg _)
  have clock : bankClock u = bankClock s := by
    rw [bankClock, bankClock, before.passing.1.elapsed, part.elapsed]
  have hd : Drivable a.station u := before.passing.drivable (by rw [computeRound_only]; exact hd)
  have clamp : clampTarget (u.cfg a.station) (u.work a.station).state a.new = a.new := by
    rw [reached.work, cfg, producing]
    exact adjusted_clamped clamped ha
  have differs : a.new ≠ (u.work a.station).target := by rw [reached.work, ← old]; exact new
  have taken : roundChange a plain u = applyTarget plain a.station a.new u := by
    rw [roundChange_plain, if_pos (by rw [reached.work, cfg, producing, unpinned]; rfl)]
  rw [taken] at after
  have aimed_ : (aimed a.station a.new u).work a.station =
      { u.work a.station with target := a.new, fresh := false, settleExpiry := none } := by
    rw [aimed, clamp, if_neg differs, setWork_work_same]
  have own := (applyTarget_driven a.station a.new u).reported (aimed_drivable.2 hd)
  have last := own.trans (after.passing.2 (applyTarget_drivable hd a.new))
  rw [aimed_] at last
  have target : ((roundEvent plainly s).work a.station).target = a.new := last.target
  refine ⟨target, last.fresh.elim id id, ?_, fun p hp => ?_⟩
  · rw [last.state]
    exact (congrArg StationWork.state reached.work).trans producing
  have inHand := applyTarget_inHand (s := u) (reached.queued.trans unqueued) (reached.motion.trans motionless)
    (by rw [reached.work]; exact hp) clamp differs
  rw [target]
  split at inHand
  case isTrue near =>
    rw [if_pos near, (after.untouched inHand.2).work, inHand.1, clock]
  case isFalse far =>
    rw [if_neg far]
    exact (after.underWay _ inHand).handed

/-- A station that no adjustment names keeps its target and its state. -/
theorem roundEvent_passing (other : ∀ a ∈ (roundRecord s).adjustments, a.station ≠ j) (hd : Drivable j s) :
    Reported (s.work j) ((roundEvent plainly s).work j) := by
  have computed := computeRound_untouched j s
  have hd' : Drivable j (computeRound plain s) := by rw [computeRound_only]; exact hd
  have passes : ∀ (l : List Adjustment) (t : State), (∀ a ∈ l, a.station ≠ j) →
      Passing j t (l.foldl (fun t a => roundChange a plain t) t) := by
    intro l
    induction l with
    | nil => exact fun t _ => .refl j t
    | cons a rest ih =>
      exact fun t h => (roundChange_spared (h a List.mem_cons_self).symm t).passing.trans
        (ih _ fun b hb => h b (List.mem_cons_of_mem _ hb))
  rw [roundEvent_eq, ← computed.work]
  exact (passes _ _ other).2 hd'


/-- The hold has nothing parked. -/
def NothingParked (s : State) : Prop :=
  s.link.hold = true → s.sampler.parked = none ∧ ∀ i : StationIx, s.measure.parked[i.val] = none

theorem handParkedFlow_none (h : s.measure.parked[i.val] = none) : handParkedFlow i plain s = s := by
  unfold handParkedFlow
  rw [h]

/-- A hold with nothing parked ends with nothing to hand on. -/
theorem endHold_empty (h : NothingParked s) : ∃ l, endHold plainly s = { s with link := l } := by
  unfold endHold
  split
  case isFalse => exact ⟨_, rfl⟩
  case isTrue hold =>
    obtain ⟨result, flows⟩ := h hold
    have same : handParkedFlows plainly (leaveHold s) = leaveHold s := by
      unfold handParkedFlows
      simp only [plainly_eq]
      exact forStations_keeps (P := fun t => t = leaveHold s)
        (fun i t ht => by rw [ht]; exact handParkedFlow_none (s := leaveHold s) (flows i)) rfl
    rw [same, handParkedResult, show (leaveHold s).sampler.parked = none from result]
    exact ⟨_, rfl⟩

theorem roundEvent_table (s : State) : TableChange (computeRound plain s) (roundEvent plainly s) := by
  rw [roundEvent_eq]
  exact .foldl (fun t a => roundChange_table t a) _ _

theorem takeRound_empty (h : NothingParked s) : ∃ l, takeRound plainly s = { roundEvent plainly s with link := l } := by
  have table := roundEvent_table s
  have only := computeRound_only s
  refine endHold_empty (s := roundEvent plainly s) fun hold => ?_
  have link : (roundEvent plainly s).link = s.link := by rw [table.link, only]
  have measure : (roundEvent plainly s).measure = s.measure := by rw [table.measure, only]
  have parked : (roundEvent plainly s).sampler.parked = s.sampler.parked := by
    have stands : SamplerStands s.sampler (roundEvent plainly s).sampler := by
      rw [roundEvent_eq]
      refine foldl_keeps (P := fun t => SamplerStands s.sampler t.sampler) (fun t a ht => ?_) _ (by rw [only]; exact .refl _)
      rw [roundChange_plain]
      split
      · exact (stands_steady s.sampler).applyTarget _ ht
      · exact ht
    exact stands.parked
  rw [measure, parked]
  exact h (link ▸ hold)

theorem NeverTripsAtOnce.noTripDue (h : NeverTripsAtOnce s) : NoTripDue s := by
  rcases h with h | h | h
  · exact .inr (.inl h)
  · exact .inl (by rw [functionValue, h]; rfl)
  · exact .inr (.inr h)

theorem roundEvent_never (h : NeverTripsAtOnce s) : NeverTripsAtOnce (roundEvent plainly s) := by
  have table := roundEvent_table s
  unfold NeverTripsAtOnce
  rw [table.bank, table.settings, computeRound_only]
  exact h

/-- A state with the stations and the drive that a round event has left. -/
theorem roundReaches_of_same (hw : NeverTripsAtOnce s → NothingParked s →
      (∀ j, t.work j = (roundEvent plainly s).work j) ∧ t.drive = (roundEvent plainly s).drive) : RoundReachesTable s t := by
  intro never clamped parked
  obtain ⟨work, drive⟩ := hw never parked
  have motion (i : StationIx) : motionOf t i = motionOf (roundEvent plainly s) i := by rw [motionOf, motionOf, drive]
  refine ⟨fun a ha new hd => ?_, fun j other hd => ?_⟩
  · obtain ⟨target, fresh, state, handed⟩ := roundEvent_adjusts clamped ha new hd
    unfold MoveHanded at handed ⊢
    rw [work, drive, motion]
    exact ⟨target, fresh, state, handed⟩
  · have kept := roundEvent_passing other hd
    rw [work]
    exact ⟨kept.target, kept.state⟩

/-- The link is in nothing that a round computes or hands on but the hold. -/
theorem roundReaches_link {l : Link} (hl : l.hold = s.link.hold) (h : RoundReachesTable { s with link := l } t) :
    RoundReachesTable s t := fun never clamped parked => h never clamped fun hold => parked (hl ▸ hold)

theorem takeRound_balancer (s : State) : (takeRound plainly s).balancer =
    { purityLow := purityLowAfter s (roundRecord s), o2High := o2HighAfter s (roundRecord s)
      shortfall := (roundRecord s).outcome = .shortfall, lastRound := some (roundRecord s) } :=
  (endHold_apart (roundEvent plainly s)).2.1.trans (roundEvent_balancer s)

theorem markAtRound_link (s : State) : ∃ l : Link, markAtRound s = { s with link := l } ∧ l.hold = s.link.hold := by
  unfold markAtRound
  split
  · split
    · exact ⟨_, rfl, rfl⟩
    · split
      · exact ⟨_, rfl, rfl⟩
      · exact ⟨_, rfl, rfl⟩
  · exact ⟨_, rfl, rfl⟩

theorem roundTimerFires_eq (s : State) : roundTimerFires plainly s = startRoundTimer (takeRound plainly (markAtRound s)) := rfl

theorem exec_roundTimerExpiry {e : Nat} (h : Undisturbed s) (he : s.bank.roundTimer = some e) : exec .roundTimerExpiry s =
    .next (evaluateTrip plainly noWords (roundTimerFires plainly (passUntil (instantOf e) s))) := by
  have clean : (passUntil (instantOf e) s).memory.Clean := h.2
  refine (perform_powered reachRound h.1).trans (congrArg Host.Outcome.next ?_)
  unfold reachRound
  rw [he]
  dsimp only
  rw [roundTimerFires_clean clean]
  exact judge_clean s ((roundTimerFires_part _).clean clean)

/-- Settles O52: the round event is computed from the state it finds, its adjustments are handed on one by one, and what follows
touches neither the balancer nor, where nothing is parked and no trip can come at once, the stations and the drive. -/
theorem roundTimerExpiry : Obligations.RoundTimerExpiry := by
  unfold Obligations.RoundTimerExpiry
  intro s e h he now
  have run : exec .roundTimerExpiry s = .next (evaluateTrip plainly noWords (roundTimerFires plainly now)) :=
    exec_roundTimerExpiry h he
  obtain ⟨l, mark, hold⟩ := markAtRound_link now
  have marked := roundTimerFires_eq now
  rw [mark] at marked
  have part := (roundTimerFires_part now).trans (evaluateTrip_part _ noWords)
  have apart := evaluateTrip_apart noWords (roundTimerFires plainly now)
  have balancer : (evaluateTrip plainly noWords (roundTimerFires plainly now)).balancer =
      { purityLow := purityLowAfter now (roundRecord now), o2High := o2HighAfter now (roundRecord now)
        shortfall := (roundRecord now).outcome = .shortfall, lastRound := some (roundRecord now) } := by
    rw [apart.balancer, marked]
    exact takeRound_balancer { now with link := l }
  refine ⟨_, run, part.elapsed, by rw [balancer], by rw [balancer], by rw [balancer], by rw [balancer]; exact decide_eq_true_iff,
    fun range => ?_, fun _ => ?_, ?_, part.silent⟩
  · have whole := takeRound_part { now with link := l }
    have clock : bankClock (takeRound plainly { now with link := l }) = bankClock now := by
      rw [bankClock, whole.elapsed]
      rfl
    have settings : (takeRound plainly { now with link := l }).settings = s.settings := whole.kept.2.2.2.1
    have timer := expiryAfter_in_range (s := takeRound plainly { now with link := l }) (n := s.settings.bank.balancePeriod)
      (by rw [clock]; exact range)
    rw [clock] at timer
    rw [apart.roundTimer, marked, startRoundTimer, settings]
    exact timer
  · rw [apart.link, marked]
    exact congrArg Link.hold (endHold_apart (roundEvent plainly { now with link := l })).1
  · refine roundReaches_link hold (roundReaches_of_same fun never parked => ?_)
    obtain ⟨l', empty⟩ := takeRound_empty parked
    have never := roundEvent_never never
    rw [empty] at marked
    generalize roundEvent plainly { now with link := l } = u at marked never ⊢
    have quiet : NoTripDue (startRoundTimer { u with link := l' }) := NeverTripsAtOnce.noTripDue never
    rw [marked, evaluateTrip_quiet noWords quiet]
    exact ⟨fun _ => rfl, rfl⟩

end Reaches

end Sys2Proof.Proofs
end

section
/-! The edges of MARK (R179, R182). -/

namespace Sys2Proof.Proofs

open Sys2Proof Sys2Proof.Machine Sys2Proof.Laws

/-! ### The end of a hold leaves nothing parked (R45, R78) -/

section Parked

variable {s t u : State} {i j : StationIx}

theorem handParkedFlow_measure (i : StationIx) (s : State) :
    (handParkedFlow i plain s).measure.parked = s.measure.parked.set i.val none := by
  unfold handParkedFlow
  split
  case h_1 r _ =>
    rw [(storeFlow_table { s with measure := { s.measure with parked := s.measure.parked.set i.val none } } i r).measure]
  case h_2 none =>
    refine (Vector.ext fun k hk => ?_)
    rw [Vector.getElem_set]
    split
    case isTrue e => subst e; exact none
    case isFalse => rfl

/-- A station's parking slot stays empty. -/
def StaysEmpty (i : StationIx) (s t : State) : Prop := s.measure.parked[i.val] = none → t.measure.parked[i.val] = none

theorem StaysEmpty.refl (i : StationIx) (s : State) : StaysEmpty i s s := id

theorem StaysEmpty.empty (h : StaysEmpty i s t) (e : s.measure.parked[i.val] = none) : t.measure.parked[i.val] = none := h e

theorem StaysEmpty.trans (h : StaysEmpty i s t) (k : StaysEmpty i t u) : StaysEmpty i s u := fun e => k (h e)

theorem handParkedFlow_empty (i : StationIx) (s : State) : (handParkedFlow i plain s).measure.parked[i.val] = none := by
  rw [handParkedFlow_measure]
  exact Vector.getElem_set_self ..

theorem handParkedFlow_staysEmpty (h : j ≠ i) (s : State) : StaysEmpty i s (handParkedFlow j plain s) := fun e => by
  rw [handParkedFlow_measure, Vector.getElem_set_ne _ _ (fun e => h (Fin.ext e))]
  exact e

theorem handParkedFlows_visits (s : State) (i : StationIx) :
    ∃ u, StaysEmpty i s u ∧ StaysEmpty i (handParkedFlow i plain u) (handParkedFlows plainly s) :=
  foldl_visits (f := fun t j => handParkedFlow j plain t) (R := StaysEmpty i) (.refl i) (fun h k => h.trans k)
    (l := allStations) (List.nodup_finRange 16) (List.mem_finRange i)
    (fun _ _ ne t => handParkedFlow_staysEmpty ne t) s

theorem handParkedFlows_parked (s : State) (i : StationIx) : (handParkedFlows plainly s).measure.parked[i.val] = none :=
  (handParkedFlows_visits s i).elim fun u seen => StaysEmpty.empty seen.2 (handParkedFlow_empty i u)

theorem endHold_flows (h : s.link.hold = true) (i : StationIx) : (endHold plainly s).measure.parked[i.val] = none := by
  have handed := handParkedResult_table (handParkedFlows plainly (leaveHold s))
  rw [endHold, if_pos h, handed.measure]
  exact handParkedFlows_parked ..

end Parked

/-! ### The edges of MARK -/

section Edges

variable {s t : State} {p : Pins} {l : Link}

theorem exec_markRise (h : Undisturbed s) (hm : s.pins.markActive = false) : exec .markRise s = .next (markRises s) := by
  have run : exec .markRise s = perform (carryOut (fun _ => [406]) (fun _ => markRises)) s :=
    (if_neg (by rw [hm]; exact Bool.false_ne_true)).trans (if_pos h.1)
  exact run.trans ((perform_powered _ h.1).trans (congrArg Host.Outcome.next (carryOut_clean _ _ h.2)))

theorem markRises_other (role : s.settings.bank.role ≠ .slave) :
    markRises s = { s with pins := { s.pins with markActive := true } } := by
  unfold markRises senseMark
  simp only [role, if_false]

theorem markRises_slave (role : s.settings.bank.role = .slave) : markRises s = { s with
    pins := { s.pins with markActive := true }
    link := { s.link with
      markSince := some s.elapsed, lastMark := some (bankClock s), hold := s.link.hold || s.link.state = .inStep } } := by
  unfold markRises senseMark
  simp only [role, if_true]

theorem exec_markFall (h : Undisturbed s) (hm : s.pins.markActive = true) : exec .markFall s = .next
    (if fallIsRound s then evaluateTrip plainly noWords (takeRound plainly (senseMark false s)) else markFalls s) := by
  have clean : (senseMark false s).memory.Clean := h.2
  have run : exec .markFall s = perform fallOfMark s := (if_neg (by simp [hm])).trans (if_pos h.1)
  refine run.trans ((perform_powered _ h.1).trans (congrArg Host.Outcome.next ?_))
  unfold fallOfMark
  split
  case isTrue round =>
    dsimp only
    rw [check_clean _ h.2.1, if_pos round, takeRound_clean clean]
    exact judge_clean s ((takeRound_part _).clean clean)
  case isFalse => exact carryOut_clean _ _ h.2

theorem senseMark_fall (role : s.settings.bank.role = .slave) : senseMark false s =
    { s with pins := { s.pins with markActive := false }, link := { s.link with markSince := none } } := by
  unfold senseMark
  simp only [role, if_true, Bool.false_eq_true, if_false]

theorem markFalls_other (role : s.settings.bank.role ≠ .slave) :
    markFalls s = { s with pins := { s.pins with markActive := false } } := by
  unfold markFalls senseMark
  simp [role]

/-- The levels and the link are in nothing that a round computes or hands on but the hold. -/
theorem roundReaches_levels (hl : l.hold = s.link.hold) (h : RoundReachesTable { s with pins := p, link := l } t) :
    RoundReachesTable s t := fun never clamped parked => h never clamped fun hold => parked (hl ▸ hold)

theorem takeRound_link (s : State) : (takeRound plainly s).link = { s.link with hold := false } ∧
    (takeRound plainly s).bank = s.bank := by
  obtain ⟨link, -, bank⟩ := endHold_apart (roundEvent plainly s)
  have table := roundEvent_table s
  have only := computeRound_only s
  constructor
  · rw [takeRound, link, table.link, only]
  · rw [takeRound, bank, table.bank, only]

theorem takeRound_holds (h : s.link.hold = true) : (takeRound plainly s).sampler.parked = none ∧
    ∀ i : StationIx, (takeRound plainly s).measure.parked[i.val] = none := by
  have hold : (roundEvent plainly s).link.hold = true := by
    rw [(roundEvent_table s).link, computeRound_only]
    exact h
  exact ⟨endHold_parked hold, endHold_flows hold⟩

/-- A round event with the evaluation behind it reaches the station table (R12, R117). -/
theorem takeRound_reaches (s : State) : RoundReachesTable s (evaluateTrip plainly noWords (takeRound plainly s)) := by
  refine roundReaches_of_same fun never parked => ?_
  obtain ⟨l', empty⟩ := takeRound_empty parked
  have never := roundEvent_never never
  rw [empty]
  generalize roundEvent plainly s = u at never ⊢
  have quiet : NoTripDue { u with link := l' } := NeverTripsAtOnce.noTripDue never
  rw [evaluateTrip_quiet noWords quiet]
  exact ⟨fun _ => rfl, rfl⟩

/-- Settles O50: each edge is the sensing of the level with what the role, the state of the link and the hold make of it; the
fall in a hold is the round event. -/
theorem markEdges : Obligations.MarkEdges := by
  unfold Obligations.MarkEdges
  intro s h risen fallen
  refine ⟨fun active => if_pos active, fun passive => ⟨fun role => ?_, fun role step => ?_, fun role lost => ?_⟩,
    fun passive => if_pos (by rw [passive]; rfl), fun active =>
      ⟨fun role => ?_, fun role step hold => ?_, fun role step hold => ?round, fun role lost late => ?_,
        fun since role lost rose soon => ?back⟩⟩
  · rw [exec_markRise h passive, markRises_other role]
  · rw [exec_markRise h passive, markRises_slave role, step]
    simp [risen]
  · rw [exec_markRise h passive, markRises_slave role, lost]
    simp [risen]
  · rw [exec_markFall h active, if_neg (by simp [fallIsRound, role]), markFalls_other role]
  · rw [exec_markFall h active, if_neg (by simp [fallIsRound, hold]), markFalls, senseMark_fall role]
    simp [step, fallen]
  case round =>
    have run := exec_markFall h active
    rw [if_pos (by simp [fallIsRound, role, step, hold]), senseMark_fall role] at run
    have part := (takeRound_part _).trans (evaluateTrip_part (takeRound plainly
      { s with pins := fallen, link := { s.link with markSince := none } }) noWords)
    have apart := evaluateTrip_apart noWords (takeRound plainly
      { s with pins := fallen, link := { s.link with markSince := none } })
    have marks := evaluateTrip_marks noWords (takeRound plainly
      { s with pins := fallen, link := { s.link with markSince := none } })
    obtain ⟨link, bank⟩ := takeRound_link { s with pins := fallen, link := { s.link with markSince := none } }
    obtain ⟨result, flows⟩ := takeRound_holds (s := { s with pins := fallen, link := { s.link with markSince := none } }) hold
    have reaches := takeRound_reaches { s with pins := fallen, link := { s.link with markSince := none } }
    have balancer := takeRound_balancer { s with pins := fallen, link := { s.link with markSince := none } }
    generalize takeRound plainly { s with pins := fallen, link := { s.link with markSince := none } } = u
      at run part apart marks link bank result flows reaches balancer
    have balancer := apart.balancer.trans balancer
    obtain ⟨kept, control, monitor, pins⟩ := part.silent
    refine ⟨_, run, kept, pins, part.elapsed, apart.link.trans link, by rw [balancer]; rfl, by rw [balancer]; rfl,
      by rw [balancer]; rfl, apart.roundTimer.trans (by rw [bank]), control, monitor, roundReaches_levels rfl reaches,
      marks.parked.trans result, fun i => by rw [apart.measure]; exact flows i⟩
  · have incomplete : markCompletes s = false := by
      unfold markCompletes
      split
      case h_1 since rose => exact decide_eq_false (Nat.not_le.2 (late since rose))
      case h_2 => rfl
    rw [exec_markFall h active, if_neg (by simp [fallIsRound, lost]), markFalls, senseMark_fall role]
    simp [incomplete, fallen]
  case back =>
    have complete : markCompletes s = true := by
      unfold markCompletes
      rw [rose]
      exact decide_eq_true soon
    have run := exec_markFall h active
    rw [if_neg (by simp [fallIsRound, lost]), markFalls, senseMark_fall role, if_pos (by simp [role, lost, complete])] at run
    exact ⟨_, run, rfl, fun room => raise_queue .linkBack 0 none none (s := { s with
      pins := fallen
      link := { s.link with markSince := none, state := .inStep, inStepSince := bankClock s }
      bank := { s.bank with roundTimer := none } }) room⟩

end Edges

end Sys2Proof.Proofs
end

section
/-! What the reports, the motions and the flow records of one station leave of the others (R25, R26, R33, R124, R127). -/

namespace Sys2Proof.Proofs

open Sys2Proof Sys2Proof.Machine Sys2Proof.Laws

/-! ### The measured fields, which no report of the drive or of the table touches -/

section Fixed

variable {s t u : State} {i j : StationIx}

/-- Every station's position, quality result and flow record are as they were. -/
structure Fixed (s t : State) : Prop where
  position : ∀ j : StationIx, (t.work j).position = (s.work j).position
  quality : ∀ j : StationIx, (t.work j).quality = (s.work j).quality
  flow : ∀ j : StationIx, (t.work j).flow = (s.work j).flow

theorem Fixed.refl (s : State) : Fixed s s := ⟨fun _ => rfl, fun _ => rfl, fun _ => rfl⟩

theorem Fixed.trans (h : Fixed s t) (k : Fixed t u) : Fixed s u where
  position j := (k.position j).trans (h.position j)
  quality j := (k.quality j).trans (h.quality j)
  flow j := (k.flow j).trans (h.flow j)

theorem Fixed.of_work (h : ∀ j, t.work j = s.work j) : Fixed s t := by
  refine ⟨fun j => ?_, fun j => ?_, fun j => ?_⟩ <;> rw [h j]

theorem Driven.fixed (h : Driven s t) : Fixed s t := by
  refine ⟨fun j => ?_, fun j => ?_, fun j => ?_⟩ <;> rcases h.work j with e | ⟨-, e⟩ <;> rw [e.same]

theorem setWork_fixed {w : StationWork} (hp : w.position = (s.work i).position) (hq : w.quality = (s.work i).quality)
    (hf : w.flow = (s.work i).flow) : Fixed s (s.setWork i w) := by
  refine ⟨fun j => ?_, fun j => ?_, fun j => ?_⟩ <;> rcases eq_or_ne j i with rfl | h
  · rw [setWork_work_same, hp]
  · rw [setWork_work_other _ _ h]
  · rw [setWork_work_same, hq]
  · rw [setWork_work_other _ _ h]
  · rw [setWork_work_same, hf]
  · rw [setWork_work_other _ _ h]

theorem enterState_fixed {new : StationState} {l : List WorkField} {f : StationWork → StationWork}
    (hp : (f (s.work i)).position = (s.work i).position) (hq : (f (s.work i)).quality = (s.work i).quality)
    (hf : (f (s.work i)).flow = (s.work i).flow) : Fixed s (enterState plain i new l f s) := by
  refine (setWork_fixed (i := i) (w := { f (s.work i) with state := new }) hp hq hf).trans (.of_work fun j => ?_)
  rw [enterState_plain, tellSampler_samplerOnly]
  rfl

theorem aimed_fixed (i : StationIx) (r : Nat) (s : State) : Fixed s (aimed i r s) := by
  unfold aimed
  split
  · exact .refl s
  · exact setWork_fixed rfl rfl rfl

theorem applyTarget_fixed (i : StationIx) (r : Nat) (s : State) : Fixed s (applyTarget plain i r s) :=
  (aimed_fixed i r s).trans (applyTarget_driven i r s).fixed

theorem haltFault_fixed (i : StationIx) (c : FaultCause) (s : State) : Fixed s (haltFault plain i c s) :=
  (enterState_fixed rfl rfl rfl).trans (.of_work fun _ => rfl)

theorem driveFault_fixed (i : StationIx) (c : FaultCause) (s : State) : Fixed s (driveFault plain i c s) := by
  have entered : Fixed s (enterState plain i (.faulted c) faultFields StationWork.faulted s) := enterState_fixed rfl rfl rfl
  unfold driveFault
  dsimp only
  split
  · exact entered.trans (moveRequest_driven i 0 _).fixed
  · exact entered.trans (applyTarget_fixed i 0 _)

theorem faultReport_fixed (i : StationIx) (c : FaultCause) (s : State) : Fixed s (faultReport plain i c s) := by
  rw [faultReport_plain]
  split
  case isFalse => exact .refl s
  case isTrue =>
    cases c
    case flowLine => exact driveFault_fixed ..
    case sampleLine => exact driveFault_fixed ..
    case record => exact driveFault_fixed ..
    all_goals exact (haltFault_fixed ..).trans (grantTest_driven _).fixed

theorem evaluateTrip_fixed (need : State → List Nat) (s : State) : Fixed s (evaluateTrip plainly need s) :=
  (evaluateTrip_work need s).elim .of_work
    fun h => ⟨fun j => (h j).position, fun j => (h j).quality, fun j => (h j).flow⟩

theorem stallMotion_fixed (i : StationIx) (s : State) : Fixed s (stallMotion plain i s) := by
  have ended : Fixed s (raise .stall (stationNumber i) none (s.work i).position (dropMotion i s)) := .of_work fun _ => rfl
  exact ended.trans ((faultReport_fixed ..).trans (grantTest_driven _).fixed)

theorem stallTest_fixed (m : Motion) (d : Direction) (r : Option Nat) (n : Nat) (s : State) :
    Fixed s (stallTest plain m d r n s) := by
  rw [stallTest_plain]
  dsimp only
  split
  · exact stallMotion_fixed ..
  · exact .of_work fun _ => rfl

theorem completed_fixed (i : StationIx) (target : Nat) (s : State) :
    Fixed s (grantTest plain (completeMotion plain i target s)) :=
  (completeMotion_steered i target s).driven.fixed.trans (grantTest_driven _).fixed

theorem seePosition_fixed (m : Motion) (s : State) : Fixed s (seePosition plain m s) := by
  rw [seePosition_plain]
  split
  · split
    · exact stallTest_fixed ..
    · exact .refl s
  · split
    · split
      · exact completed_fixed ..
      · split
        · exact .of_work fun _ => rfl
        · exact stallTest_fixed ..
    · split
      · exact completed_fixed ..
      · exact .of_work fun _ => rfl
    · exact .of_work fun _ => rfl

theorem seeMotion_fixed (i : StationIx) (s : State) : Fixed s (seeMotion i plain s) := by
  unfold seeMotion
  split
  · exact seePosition_fixed ..
  · exact .refl s

end Fixed

/-! ### A station while the others are worked at -/

section Bystander

variable {s t u : State} {i j : StationIx}

/-- What the work at other stations and the grants behind it leave of a station: a grant may begin or end its move, where it has
an entry, and stalls it where its position is absent. -/
structure Bystander (i : StationIx) (s t : State) : Prop where
  bank : t.bank = s.bank
  reported : Drivable i s → Reported (s.work i) (t.work i)
  untouched : queued s i = false ∨ s.bank.mode = .idle → Untouched i s t

namespace Bystander

theorem refl (i : StationIx) (s : State) : Bystander i s s := ⟨rfl, fun _ => .refl _, fun _ => .refl i s⟩

theorem drivable (h : Bystander i s t) (hd : Drivable i s) : Drivable i t := by
  unfold Drivable
  rw [h.bank, (h.reported hd).position]
  exact hd

theorem still (h : Bystander i s t) (hq : queued s i = false ∨ s.bank.mode = .idle) : queued t i = false ∨ t.bank.mode = .idle := by
  rw [h.bank, (h.untouched hq).queued]
  exact hq

theorem trans (h : Bystander i s t) (k : Bystander i t u) : Bystander i s u where
  bank := k.bank.trans h.bank
  reported hd := (h.reported hd).trans (k.reported (h.drivable hd))
  untouched hq := (h.untouched hq).trans (k.untouched (h.still hq))

theorem of_untouched (hb : t.bank = s.bank) (h : Untouched i s t) : Bystander i s t :=
  ⟨hb, fun _ => by rw [h.work]; exact .refl _, fun _ => h⟩

end Bystander

theorem setWork_bystander (h : i ≠ j) (w : StationWork) (s : State) : Bystander i s (s.setWork j w) :=
  .of_untouched (setWork_table s j w).bank (setWork_untouched h w s)

theorem grantTest_bystander (i : StationIx) (s : State) : Bystander i s (grantTest plain s) where
  bank := (grantTest_table s).bank
  reported := (grantTest_driven s).reported
  untouched h := by
    rcases h with h | h
    · exact grantTest_untouched h
    · rw [grantTest_idle h]
      exact .refl i s

theorem takeMove_bystander (h : i ≠ j) (target : Nat) (s : State) : Bystander i s (takeMove plain j target s) :=
  .of_untouched (takeMove_table s j target).bank (takeMove_untouched h target s)

theorem moveRequest_bystander (h : i ≠ j) (target : Nat) (s : State) : Bystander i s (moveRequest plain j target s) :=
  (takeMove_bystander h target s).trans (grantTest_bystander i _)

theorem applyTarget_bystander (h : i ≠ j) (r : Nat) (s : State) : Bystander i s (applyTarget plain j r s) := by
  rw [applyTarget_plain]
  split
  · exact .refl i s
  · exact (setWork_bystander h _ s).trans (moveRequest_bystander h _ _)

theorem driveFault_bystander (h : i ≠ j) (c : FaultCause) (s : State) : Bystander i s (driveFault plain j c s) := by
  have entered : Bystander i s (enterState plain j (.faulted c) faultFields StationWork.faulted s) :=
    .of_untouched (enterState_table ..).bank (enterState_untouched h _ _ _ s)
  unfold driveFault
  dsimp only
  split
  · exact entered.trans (moveRequest_bystander h 0 _)
  · exact entered.trans (applyTarget_bystander h 0 _)

theorem haltFault_bystander (h : i ≠ j) (c : FaultCause) (s : State) : Bystander i s (haltFault plain j c s) :=
  .of_untouched (haltFault_table ..).bank (haltFault_untouched h c s)

theorem faultReport_bystander (h : i ≠ j) (c : FaultCause) (s : State) : Bystander i s (faultReport plain j c s) := by
  rw [faultReport_plain]
  split
  case isFalse => exact .refl i s
  case isTrue =>
    cases c
    case flowLine => exact driveFault_bystander h _ s
    case sampleLine => exact driveFault_bystander h _ s
    case record => exact driveFault_bystander h _ s
    all_goals exact (haltFault_bystander h _ s).trans (grantTest_bystander i _)

theorem stallMotion_bystander (h : i ≠ j) (s : State) : Bystander i s (stallMotion plain j s) := by
  have ended : Bystander i s (raise .stall (stationNumber j) none (s.work j).position (dropMotion j s)) :=
    .of_untouched rfl ((dropMotion_untouched h s).trans (.of_table rfl rfl))
  exact ended.trans ((faultReport_bystander h _ _).trans (grantTest_bystander i _))

theorem setMotion_bystander {m : Motion} (h : i ≠ j) (hm : m.station = j) (s : State) : Bystander i s (setMotion m s) :=
  .of_untouched rfl (setMotion_untouched (hm ▸ h) s)

theorem stallTest_bystander {m : Motion} (h : i ≠ j) (hm : m.station = j) (d : Direction) (r : Option Nat) (n : Nat) (s : State) :
    Bystander i s (stallTest plain m d r n s) := by
  rw [stallTest_plain]
  dsimp only
  split
  · exact stallMotion_bystander (hm ▸ h) s
  · exact setMotion_bystander h (by exact hm) s

theorem completed_bystander (h : i ≠ j) (target : Nat) (s : State) :
    Bystander i s (grantTest plain (completeMotion plain j target s)) :=
  (Bystander.of_untouched (completeMotion_table ..).bank (completeMotion_untouched h target s)).trans (grantTest_bystander i _)

theorem seePosition_bystander {m : Motion} (h : i ≠ j) (hm : m.station = j) (s : State) :
    Bystander i s (seePosition plain m s) := by
  subst hm
  rw [seePosition_plain]
  split
  · split
    · exact stallTest_bystander h rfl ..
    · exact .refl i s
  · split
    · split
      · exact completed_bystander h _ s
      · split
        · exact setMotion_bystander h (by rfl) s
        · exact stallTest_bystander h (by rfl) ..
    · split
      · exact completed_bystander h _ s
      · exact setMotion_bystander h (by rfl) s
    · exact setMotion_bystander h (by rfl) s

theorem seeMotion_bystander (h : i ≠ j) (s : State) : Bystander i s (seeMotion j plain s) := by
  unfold seeMotion
  split
  case h_1 m hm => exact seePosition_bystander h (motionOf_station hm) s
  case h_2 => exact .refl i s

/-- The record that a window's invalid end leaves, ahead of the report (R33). -/
def flowInvalid (i : StationIx) (time : Nat) (s : State) : State :=
  s.setWork i { s.work i with flow := { (s.work i).flow with valid := false, time := time } }

theorem storeFlow_invalid (i : StationIx) (time : Nat) (s : State) :
    storeFlow plain i (.invalid time) s = faultReport plain i .flowLine (flowInvalid i time s) := rfl

end Bystander

end Sys2Proof.Proofs
end

section
/-! The first steps of a conversion (R36, R39, R34, R41): the input table, the line events, the positions and their reports. -/

namespace Sys2Proof.Proofs

open Sys2Proof Sys2Proof.Machine Sys2Proof.Laws

/-! ### The input table (R36, R37) -/

section Inputs

variable {s t : State} {now c : Nat} {i : StationIx}

theorem statusOfCode_fault : statusOfCode c = .fault ↔ c ≤ 736 := by
  unfold statusOfCode
  split
  · simp [*]
  · split
    · simp [*]
    · split <;> simp [*]

theorem statusOfCode_zero (h : 737 ≤ c) (h' : c ≤ 818) : statusOfCode c = .zero :=
  (if_neg (by omega)).trans (if_pos h')

theorem statusOfCode_good (h : 819 ≤ c) (h' : c ≤ 4094) : statusOfCode c = .good :=
  (if_neg (by omega)).trans ((if_neg (by omega)).trans (if_pos h'))

theorem statusOfCode_saturated (h : 4095 ≤ c) : statusOfCode c = .saturated :=
  (if_neg (by omega)).trans ((if_neg (by omega)).trans (if_neg (by omega)))

theorem statusOfCode_saturated_iff (h : c ≤ 4095) : statusOfCode c = .saturated ↔ c = 4095 := by
  constructor
  · intro e
    by_contra other
    unfold statusOfCode at e
    rw [if_pos (show c ≤ 4094 by omega)] at e
    split at e
    · exact nomatch e
    · split at e <;> exact nomatch e
  · rintro rfl
    rfl

theorem inputValue_none_iff {span : Nat} {code : Code} :
    inputValue span (convertCode now code) = none ↔ code.toNat ≤ 736 := by
  rw [← statusOfCode_fault]
  unfold inputValue convertCode
  dsimp only
  cases h : statusOfCode code.toNat <;> simp
  unfold statusOfCode at h
  split at h
  · exact nomatch h
  · split at h
    · exact nomatch h
    · split at h <;> exact nomatch h

theorem code_le (code : Code) : code.toNat ≤ 4095 := Nat.le_of_lt_succ code.isLt

end Inputs

/-! ### The line events (R39) -/

section Events

variable {s t : State} {i : StationIx} {kind : EventKind} {old : InputStatus} {new : InputEntry}

/-- Only the event unit differs. -/
def EventsOnly (s t : State) : Prop := t = { s with events := t.events }

/-- The event of a loop that breaks or is made good (R39). -/
def lineEdge (s : State) (kind : EventKind) (i : StationIx) (old : InputStatus) (c : Nat) : Option EventRecord :=
  if (s.work i).state = .unused ∨ (old = .fault ↔ c ≤ 736) then none
  else some ⟨kind, i.val + 1, some (if c ≤ 736 then .set else .clear), bankClock s, some c⟩

theorem lineEvent_edge (code : Code) (now : Nat) (room : s.events.queue.length + (lineEdge s kind i old code.toNat).toList.length ≤ 24) :
    (lineEvent kind i old (convertCode now code) s).events.queue =
      s.events.queue ++ (lineEdge s kind i old code.toNat).toList := by
  have fault : (convertCode now code).status = .fault ↔ code.toNat ≤ 736 := statusOfCode_fault
  have added (e : Edge) (h : lineEdge s kind i old code.toNat = some ⟨kind, i.val + 1, some e, bankClock s, some code.toNat⟩) :
      (raise kind (stationNumber i) (some e) (some (convertCode now code).code) s).events.queue =
        s.events.queue ++ (lineEdge s kind i old code.toNat).toList := by
    rw [h] at room ⊢
    exact raise_queue _ _ _ _ (Nat.lt_of_succ_le room)
  have kept (h : lineEdge s kind i old code.toNat = none) :
      s.events.queue = s.events.queue ++ (lineEdge s kind i old code.toNat).toList := by
    rw [h]
    exact (List.append_nil _).symm
  unfold lineEvent
  by_cases unused : (s.work i).state = .unused
  · rw [if_pos unused]
    exact kept (if_pos (.inl unused))
  rw [if_neg unused]
  by_cases broken : code.toNat ≤ 736
  · rw [if_pos (fault.2 broken)]
    by_cases was : old = .fault
    · rw [if_pos was]
      exact kept (if_pos (.inr (iff_of_true was broken)))
    · rw [if_neg was]
      refine added _ ((if_neg ?_).trans (by rw [if_pos broken]))
      rintro (e | e)
      · exact unused e
      · exact was (e.2 broken)
  · rw [if_neg (fun e => broken (fault.1 e))]
    by_cases was : old = .fault
    · rw [if_pos was]
      refine added _ ((if_neg ?_).trans (by rw [if_neg broken]))
      rintro (e | e)
      · exact unused e
      · exact broken (e.1 was)
    · rw [if_neg was]
      exact kept (if_pos (.inr (iff_of_false was broken)))

theorem lineEvent_only (kind : EventKind) (i : StationIx) (old : InputStatus) (new : InputEntry) (s : State) :
    EventsOnly s (lineEvent kind i old new s) := by
  unfold lineEvent EventsOnly
  split
  · rfl
  · split <;> split <;> rfl

theorem EventsOnly.refl (s : State) : EventsOnly s s := rfl

theorem EventsOnly.trans {u : State} (h : EventsOnly s t) (k : EventsOnly t u) : EventsOnly s u := by
  unfold EventsOnly at *
  rw [k, h]

/-- A run of steps over stations, each of which raises its station's event where the queue has room. -/
theorem edges_run {f : StationIx → State → State} {e : StationIx → Option EventRecord}
    (only : ∀ i t, EventsOnly s t → EventsOnly s (f i t))
    (adds : ∀ i t, EventsOnly s t → t.events.queue.length + (e i).toList.length ≤ 24 →
      (f i t).events.queue = t.events.queue ++ (e i).toList) (l : List StationIx) (ht : EventsOnly s t) :
    EventsOnly s (l.foldl (fun t i => f i t) t) ∧ (t.events.queue.length + (l.filterMap e).length ≤ 24 →
      (l.foldl (fun t i => f i t) t).events.queue = t.events.queue ++ l.filterMap e) := by
  induction l generalizing t with
  | nil => exact ⟨ht, fun _ => (List.append_nil _).symm⟩
  | cons i rest ih =>
    have split : (i :: rest).filterMap e = (e i).toList ++ rest.filterMap e := by
      rw [List.filterMap_cons]
      cases e i <;> rfl
    obtain ⟨only', adds'⟩ := ih (only i t ht)
    refine ⟨only', fun room => ?_⟩
    rw [split, List.length_append] at room
    have first := adds i t ht (by omega)
    rw [split, ← List.append_assoc, ← first]
    exact adds' (by rw [first, List.length_append]; omega)

theorem lineEvents_eq (before : Vector InputEntry 35) (s : State) : lineEvents before s =
    allStations.foldl (fun t i => lineEvent .positionLine i before[i.val + 16].status (positionInput t i) t)
      (allStations.foldl (fun t i => lineEvent .flowLine i before[i.val].status (dpInput t i) t) s) := rfl

/-- The line events of a conversion, where the queue has room for them (R39, log 16). -/
theorem lineEvents_queue (before : Vector InputEntry 35) (codes : Vector Code 35) (now : Nat)
    (hs : s.measure.inputs = codes.map (convertCode now)) :
    EventsOnly s (lineEvents before s) ∧
      (s.events.queue.length + (allStations.filterMap (fun i => lineEdge s .flowLine i before[i.val].status codes[i.val].toNat) ++
          allStations.filterMap fun i => lineEdge s .positionLine i before[i.val + 16].status codes[i.val + 16].toNat).length ≤ 24 →
        (lineEvents before s).events.queue = s.events.queue ++
          (allStations.filterMap (fun i => lineEdge s .flowLine i before[i.val].status codes[i.val].toNat) ++
            allStations.filterMap fun i => lineEdge s .positionLine i before[i.val + 16].status codes[i.val + 16].toNat)) := by
  have flow (i : StationIx) (t : State) (ht : EventsOnly s t) : dpInput t i = convertCode now codes[i.val] := by
    rw [ht, dpInput, hs]
    exact Vector.getElem_map ..
  have position (i : StationIx) (t : State) (ht : EventsOnly s t) : positionInput t i = convertCode now codes[i.val + 16] := by
    rw [ht, positionInput, hs]
    exact Vector.getElem_map ..
  have same (k : EventKind) (i : StationIx) (o : InputStatus) (c : Nat) (t : State) (ht : EventsOnly s t) :
      lineEdge t k i o c = lineEdge s k i o c := by rw [ht]; rfl
  have first := edges_run (s := s) (t := s) (f := fun i t => lineEvent .flowLine i before[i.val].status (dpInput t i) t)
    (e := fun i => lineEdge s .flowLine i before[i.val].status codes[i.val].toNat)
    (fun i t ht => ht.trans (lineEvent_only ..))
    (fun i t ht room => by
      rw [flow i t ht, ← same _ _ _ _ t ht]
      exact lineEvent_edge _ _ (by rw [same _ _ _ _ t ht]; exact room)) allStations (.refl s)
  have second := edges_run (s := s) (f := fun i t => lineEvent .positionLine i before[i.val + 16].status (positionInput t i) t)
    (e := fun i => lineEdge s .positionLine i before[i.val + 16].status codes[i.val + 16].toNat)
    (fun i t ht => ht.trans (lineEvent_only ..))
    (fun i t ht room => by
      rw [position i t ht, ← same _ _ _ _ t ht]
      exact lineEvent_edge _ _ (by rw [same _ _ _ _ t ht]; exact room)) allStations first.1
  rw [lineEvents_eq]
  refine ⟨second.1, fun room => ?_⟩
  rw [List.length_append] at room
  have flows := first.2 (by omega)
  refine (second.2 (by rw [flows, List.length_append]; omega)).trans ?_
  rw [flows, List.append_assoc]

end Events

/-! ### The positions (R34, R41) -/

section Positions

variable {s t : State} {i j : StationIx}

/-- A station's position is stored from an input table. -/
def placed (inputs : Vector InputEntry 35) (i : StationIx) (s : State) : State :=
  s.setWork i { s.work i with position := inputValue 1000 inputs[i.val + 16] }

/-- Two runs agree whose steps agree on the states that the one passes through. -/
theorem foldl_agree {α : Type} {f g : State → α → State} {P : State → Prop} (agree : ∀ t a, P t → f t a = g t a)
    (keeps : ∀ t a, P t → P (g t a)) (l : List α) (h : P s) : l.foldl f s = l.foldl g s := by
  induction l generalizing s with
  | nil => rfl
  | cons a rest ih =>
    rw [List.foldl_cons, List.foldl_cons, agree s a h]
    exact ih (keeps s a h)

theorem storePositions_eq (s : State) : storePositions plain s = forStations (placed s.measure.inputs) s := by
  have agree (t : State) (i : StationIx) (ht : t.measure = s.measure) :
      putWork plain i [.position] { t.work i with position := inputValue 1000 (positionInput t i) } t =
        placed s.measure.inputs i t := by
    rw [putWork_plain, positionInput, ht]
    rfl
  simp only [storePositions, forStations]
  exact foldl_agree (P := fun t => t.measure = s.measure) agree (fun _ _ ht => ht) allStations rfl

theorem placed_work (inputs : Vector InputEntry 35) (s : State) (j : StationIx) :
    (forStations (placed inputs) s).work j = { s.work j with position := inputValue 1000 inputs[j.val + 16] } :=
  forStations_work (f := placed inputs) (Q := fun i a b => b = { a with position := inputValue 1000 inputs[i.val + 16] })
    (fun i j s h => setWork_work_other _ _ h) (fun i s => setWork_work_same _ _ _) s j

theorem placed_only (inputs : Vector InputEntry 35) (s : State) :
    forStations (placed inputs) s = { s with stations := (forStations (placed inputs) s).stations } :=
  forStations_keeps (P := fun t => t = { s with stations := t.stations })
    (fun i t ht => by rw [placed, State.setWork, State.setStation, ht]) rfl

end Positions

end Sys2Proof.Proofs
end

section
/-! The further steps of a conversion (R34, R40): the reports of absent positions, the motions, and the flow windows. -/

namespace Sys2Proof.Proofs

open Sys2Proof Sys2Proof.Machine Sys2Proof.Laws

/-! ### A run over all stations, seen from one of them -/

section Runs

variable {s t : State} {i : StationIx}

/-- A run over all stations comes once to each, with the state that the others before have led to. -/
theorem forStations_visits {f : StationIx → State → State} {R : State → State → Prop} (refl : ∀ s, R s s)
    (trans : ∀ {s t u}, R s t → R t u → R s u) (others : ∀ j s, j ≠ i → R s (f j s)) (s : State) :
    ∃ u, R s u ∧ R (f i u) (forStations f s) := by
  unfold forStations
  exact foldl_visits (f := fun t j => f j t) (l := allStations) refl trans (List.nodup_finRange 16) (List.mem_finRange i)
    (fun j _ ne t => others j t ne) s

theorem foldl_bystander {α : Type} {f : State → α → State} {l : List α} (h : ∀ a ∈ l, ∀ t, Bystander i t (f t a)) (s : State) :
    Bystander i s (l.foldl f s) := by
  induction l generalizing s with
  | nil => exact .refl i s
  | cons a rest ih =>
    exact (h a List.mem_cons_self s).trans (ih (fun b hb => h b (List.mem_cons_of_mem _ hb)) _)

theorem foldl_fixed {α : Type} {f : State → α → State} (h : ∀ a t, Fixed t (f t a)) (l : List α) (s : State) :
    Fixed s (l.foldl f s) := by
  induction l generalizing s with
  | nil => exact .refl s
  | cons a rest ih => exact (h a s).trans (ih _)

/-- No station has two motions. -/
theorem driveListed_steady : TableSteady fun t => DriveListed t.drive ∧ t.settings.bank.slotCount ≤ 4 where
  raise _ _ _ _ h := h
  soft _ _ _ h := h
  aim i r h := by
    unfold aimed
    split
    · exact h
    · exact h
  enter i new l f _ _ _ h := by
    rw [enterState_plain, tellSampler_samplerOnly]
    exact h
  enterAim i new l f r _ h := by
    unfold aimed
    rw [enterState_plain, tellSampler_samplerOnly]
    split
    · exact h
    · exact h
  standDown i h := by
    rw [standDown_plain]
    split
    · exact h
    · exact h
  selection _ _ _ h := h
  drive d step h := ⟨step.listed h.1 h.2, h.2⟩

end Runs

/-! ### The reports of absent positions (R34) -/

section Reports

variable {s t u : State} {i j : StationIx} {m : Motion}

/-- An absent position is reported, and a present one is not. -/
def reportPosition (i : StationIx) (s : State) : State :=
  if (s.work i).position.isNone then faultReport plain i .positionLine s else s

theorem reportPositions_eq (s : State) : reportPositions plain s = forStations reportPosition s := rfl

theorem reportPosition_bystander (h : i ≠ j) (s : State) : Bystander i s (reportPosition j s) := by
  unfold reportPosition
  split
  · exact faultReport_bystander h _ s
  · exact .refl i s

theorem reportPosition_fixed (i : StationIx) (s : State) : Fixed s (reportPosition i s) := by
  unfold reportPosition
  split
  · exact faultReport_fixed ..
  · exact .refl s

theorem reportPositions_fixed (s : State) : Fixed s (reportPositions plain s) := by
  rw [reportPositions_eq]
  exact foldl_fixed (fun i t => reportPosition_fixed i t) allStations s

theorem TableSteady.reportPositions {P : State → Prop} (hP : TableSteady P) (h : P s) : P (reportPositions plain s) := by
  rw [reportPositions_eq]
  refine forStations_keeps (fun i t ht => ?_) h
  unfold reportPosition
  split
  · exact hP.faultReport _ ht
  · exact ht

theorem reportPositions_visits (i : StationIx) (s : State) :
    ∃ u, Bystander i s u ∧ Bystander i (reportPosition i u) (reportPositions plain s) :=
  forStations_visits (.refl i) .trans (fun _ s ne => reportPosition_bystander (Ne.symm ne) s) s

/-- The station has no motion and no entry. -/
def AtRest (i : StationIx) (s : State) : Prop := motionOf s i = none ∧ queued s i = false

theorem AtRest.untouched (h : AtRest i s) (k : Untouched i s t) : AtRest i t := ⟨k.motion.trans h.1, k.queued.trans h.2⟩

/-- A station whose valve cannot be driven leaves the drive (R26, R125). -/
theorem haltFault_atRest (i : StationIx) (c : FaultCause) (s : State) : AtRest i (haltFault plain i c s) := by
  rw [haltFault, withdraw_plain]
  constructor
  · unfold motionOf dropMoves
    rw [List.find?_eq_none]
    intro m hm
    simpa using (List.mem_filter.1 hm).2
  · unfold queued dropMoves
    rw [List.any_eq_false]
    intro e he
    simpa using (List.mem_filter.1 he).2

/-- The report of an absent position, where it is taken (R25, R26). -/
theorem reportPosition_taken (absent : (s.work i).position = none)
    (taken : faultTaken .positionLine (s.work i).state (motionStatus s i) = true) :
    Faulted .positionLine (s.work i) ((reportPosition i s).work i) ∧ AtRest i (reportPosition i s) := by
  have reports : reportPosition i s = faultReport plain i .positionLine s := if_pos (by rw [absent]; rfl)
  rw [reports]
  refine ⟨faultReport_own taken, ?_⟩
  rw [faultReport_plain, if_pos taken]
  have halted := haltFault_atRest i .positionLine s
  exact halted.untouched (grantTest_untouched halted.2)

theorem reportPosition_present {p : Nat} (h : (s.work i).position = some p) : reportPosition i s = s :=
  if_neg (by rw [h]; exact Bool.false_ne_true)

/-- A station in motion is not faulted by an absent position (R25). -/
theorem reportPosition_moving (h : motionOf s i = some m) : reportPosition i s = s := by
  unfold reportPosition
  split
  · refine faultReport_none ?_
    have status : motionStatus s i = m.phase.status := by rw [motionStatus, h]
    rw [status]
    cases m.phase <;> simp [faultTaken, MotionPhase.status]
  · rfl

end Reports

/-! ### The motions (R131) -/

section Moves

variable {s t u : State} {i j : StationIx} {m : Motion}

theorem movePositions_eq (s : State) : movePositions plainly s =
    (s.drive.motions.map Motion.station).foldl (fun t i => seeMotion i plain t) s := rfl

theorem movePositions_fixed (s : State) : Fixed s (movePositions plainly s) :=
  foldl_fixed (fun i t => seeMotion_fixed i t) _ s

theorem TableSteady.movePositions {P : State → Prop} (hP : TableSteady P) (h : P s) : P (movePositions plainly s) := by
  rw [movePositions_eq]
  refine foldl_keeps (fun t i ht => ?_) _ h
  exact hP.seeMotion ht

/-- A station without a motion is a bystander of the motions' course. -/
theorem movePositions_bystander (h : motionOf s i = none) : Bystander i s (movePositions plainly s) := by
  rw [movePositions_eq]
  refine foldl_bystander (fun j hj t => seeMotion_bystander (fun e => ?_) t) s
  exact motionOf_none_iff.1 h (e ▸ hj)

/-- Work at other stations: a bystander's station, the part outside the table and the drive, and the events raised before stand. -/
structure Beside (i : StationIx) (s t : State) : Prop where
  bystander : Bystander i s t
  table : TableChange s t
  grows : s.events.queue <+: t.events.queue

theorem Beside.refl (i : StationIx) (s : State) : Beside i s s := ⟨.refl i s, .refl s, List.prefix_refl _⟩

theorem Beside.trans (h : Beside i s t) (k : Beside i t u) : Beside i s u :=
  ⟨h.bystander.trans k.bystander, h.table.trans k.table, h.grows.trans k.grows⟩

theorem seeMotion_beside (h : i ≠ j) (s : State) : Beside i s (seeMotion j plain s) :=
  ⟨seeMotion_bystander h s, seeMotion_table .., (grown_steady _).seeMotion (List.prefix_refl _)⟩

/-- The motion of a station sees its position once. -/
theorem movePositions_visits (once : (s.drive.motions.map Motion.station).Nodup) (h : motionOf s i = some m) :
    ∃ u, Beside i s u ∧ Beside i (seeMotion i plain u) (movePositions plainly s) := by
  have moving : i ∈ s.drive.motions.map Motion.station := by
    by_contra out
    rw [motionOf_none_iff.2 out] at h
    exact nomatch h
  rw [movePositions_eq]
  exact foldl_visits (f := fun t j => seeMotion j plain t) (.refl i) .trans once moving
    (fun j _ ne t => seeMotion_beside (Ne.symm ne) t) s

end Moves

end Sys2Proof.Proofs
end

section
/-! The flow windows of a conversion (R33, R40, R43 to R46). -/

namespace Sys2Proof.Proofs

open Sys2Proof Sys2Proof.Machine Sys2Proof.Laws

section Flows

variable {s t u : State} {i j : StationIx} {r : WindowResult}

/-! ### What a flow step leaves of everything (R40) -/

/-- What every flow step leaves alone. -/
structure FlowApart (s t : State) : Prop where
  part : PartChange s t
  link : t.link = s.link
  balancer : t.balancer = s.balancer
  bank : t.bank = s.bank
  inputs : t.measure.inputs = s.measure.inputs
  position : ∀ j : StationIx, (t.work j).position = (s.work j).position
  quality : ∀ j : StationIx, (t.work j).quality = (s.work j).quality

theorem FlowApart.refl (s : State) : FlowApart s s := ⟨.refl s, rfl, rfl, rfl, rfl, fun _ => rfl, fun _ => rfl⟩

theorem FlowApart.trans (h : FlowApart s t) (k : FlowApart t u) : FlowApart s u where
  part := h.part.trans k.part
  link := k.link.trans h.link
  balancer := k.balancer.trans h.balancer
  bank := k.bank.trans h.bank
  inputs := k.inputs.trans h.inputs
  position j := (k.position j).trans (h.position j)
  quality j := (k.quality j).trans (h.quality j)

theorem FlowApart.of_fixed (table : TableChange s t) (h : Fixed s t) : FlowApart s t :=
  ⟨.ofTable table, table.link, table.balancer, table.bank, by rw [table.measure], h.position, h.quality⟩

theorem setWindow_apart (i : StationIx) (w : Option FlowWindow) (s : State) : FlowApart s (setWindow i w s) :=
  ⟨setWindow_part s i w, rfl, rfl, rfl, rfl, fun _ => rfl, fun _ => rfl⟩

/-- A flow record is written into a station's working part (R33). -/
theorem setFlow_apart (i : StationIx) (f : FlowRecord) (s : State) : FlowApart s (s.setWork i { s.work i with flow := f }) := by
  have table := setWork_table s i { s.work i with flow := f }
  refine ⟨.ofTable table, table.link, table.balancer, table.bank, by rw [table.measure], fun j => ?_, fun j => ?_⟩ <;>
    rcases eq_or_ne j i with rfl | h
  · rw [setWork_work_same]
  · rw [setWork_work_other _ _ h]
  · rw [setWork_work_same]
  · rw [setWork_work_other _ _ h]

theorem storeFlow_apart (i : StationIx) (r : WindowResult) (s : State) : FlowApart s (storeFlow plain i r s) := by
  cases r with
  | valid q dp sat clamped time => exact setFlow_apart i _ s
  | invalid time =>
    rw [storeFlow_invalid]
    exact (setFlow_apart i _ s).trans (.of_fixed (faultReport_table ..) (faultReport_fixed ..))

theorem handFlow_apart (i : StationIx) (r : WindowResult) (s : State) : FlowApart s (handFlow plain i r s) := by
  unfold handFlow
  split
  · exact ⟨⟨rfl, fun _ => rfl⟩, rfl, rfl, rfl, rfl, fun _ => rfl, fun _ => rfl⟩
  · exact storeFlow_apart i r s

theorem flowStep_apart (i : StationIx) (s : State) : FlowApart s (flowStep i plain s) := by
  rw [flowStep_plain]
  split
  · split
    · exact (setWindow_apart i none s).trans (handFlow_apart ..)
    · exact .refl s
  · dsimp only
    split
    · exact (setWindow_apart i none s).trans (handFlow_apart ..)
    · exact setWindow_apart ..

theorem stepFlows_apart (s : State) : FlowApart s (stepFlows plainly s) :=
  forStations_keeps (P := FlowApart s) (fun i _ h => h.trans (flowStep_apart i _)) (.refl s)

/-! ### What a flow step leaves of another station -/

/-- What the flow steps of other stations leave of a station's windows, record and move. -/
structure FlowElse (i : StationIx) (s t : State) : Prop where
  apart : FlowApart s t
  window : t.measure.windows[i.val] = s.measure.windows[i.val]
  parked : t.measure.parked[i.val] = s.measure.parked[i.val]
  flow : (t.work i).flow = (s.work i).flow
  bystander : Bystander i s t

theorem FlowElse.refl (i : StationIx) (s : State) : FlowElse i s s := ⟨.refl s, rfl, rfl, rfl, .refl i s⟩

theorem FlowElse.trans (h : FlowElse i s t) (k : FlowElse i t u) : FlowElse i s u where
  apart := h.apart.trans k.apart
  window := k.window.trans h.window
  parked := k.parked.trans h.parked
  flow := k.flow.trans h.flow
  bystander := h.bystander.trans k.bystander

theorem index_ne (h : i ≠ j) : j.val ≠ i.val := fun e => h (Fin.ext e.symm)

theorem setWindow_else (h : i ≠ j) (w : Option FlowWindow) (s : State) : FlowElse i s (setWindow j w s) where
  apart := setWindow_apart j w s
  window := Vector.getElem_set_ne (xs := s.measure.windows) j.isLt i.isLt (index_ne h)
  parked := rfl
  flow := rfl
  bystander := .of_untouched rfl (.of_table rfl rfl)

theorem faultReport_flow (h : i ≠ j) (c : FaultCause) (s : State) : FlowElse i s (faultReport plain j c s) where
  apart := .of_fixed (faultReport_table ..) (faultReport_fixed ..)
  window := by rw [(faultReport_table ..).measure]
  parked := by rw [(faultReport_table ..).measure]
  flow := (faultReport_fixed ..).flow i
  bystander := faultReport_bystander h c s

theorem setFlow_else (h : i ≠ j) (f : FlowRecord) (s : State) : FlowElse i s (s.setWork j { s.work j with flow := f }) where
  apart := setFlow_apart j f s
  window := rfl
  parked := rfl
  flow := by rw [setWork_work_other _ _ h]
  bystander := setWork_bystander h _ s

theorem storeFlow_else (h : i ≠ j) (r : WindowResult) (s : State) : FlowElse i s (storeFlow plain j r s) := by
  cases r with
  | valid q dp sat clamped time => exact setFlow_else h _ s
  | invalid time =>
    rw [storeFlow_invalid]
    exact (setFlow_else h _ s).trans (faultReport_flow h _ _)

theorem handFlow_else (h : i ≠ j) (r : WindowResult) (s : State) : FlowElse i s (handFlow plain j r s) := by
  have apart := handFlow_apart j r s
  unfold handFlow at apart ⊢
  by_cases hold : s.link.hold = true
  · rw [if_pos hold] at apart ⊢
    exact ⟨apart, rfl, Vector.getElem_set_ne (xs := s.measure.parked) j.isLt i.isLt (index_ne h), rfl,
      .of_untouched rfl (.of_table rfl rfl)⟩
  · rw [if_neg hold]
    exact storeFlow_else h r s

theorem flowStep_else (h : i ≠ j) (s : State) : FlowElse i s (flowStep j plain s) := by
  rw [flowStep_plain]
  split
  · split
    · exact (setWindow_else h none s).trans (handFlow_else h _ _)
    · exact .refl i s
  · dsimp only
    split
    · exact (setWindow_else h none s).trans (handFlow_else h _ _)
    · exact setWindow_else h _ s

theorem stepFlows_eq (s : State) : stepFlows plainly s = forStations (fun i t => flowStep i plain t) s := rfl

theorem stepFlows_visits (i : StationIx) (s : State) :
    ∃ u, FlowElse i s u ∧ FlowElse i (flowStep i plain u) (stepFlows plainly s) := by
  rw [stepFlows_eq]
  exact forStations_visits (f := fun i t => flowStep i plain t) (.refl i) .trans
    (fun _ s ne => flowStep_else (Ne.symm ne) s) s

/-! ### A flow step at its own station (R33, R43 to R45) -/

/-- The flow record that the end of a window makes of the one before (R4, R33). -/
def recordBy (f : FlowRecord) : WindowResult → FlowRecord
  | .valid q dp sat clamped time => ⟨q, dp, sat, clamped, time, true⟩
  | .invalid time => { f with valid := false, time := time }

theorem storeFlow_own (i : StationIx) (r : WindowResult) (s : State) :
    ((storeFlow plain i r s).work i).flow = recordBy (s.work i).flow r := by
  cases r with
  | valid q dp sat clamped time => exact congrArg StationWork.flow (setWork_work_same s i _)
  | invalid time =>
    rw [storeFlow_invalid, (faultReport_fixed ..).flow]
    exact congrArg StationWork.flow (setWork_work_same s i _)

/-- A window that has ended: it is gone, and its record is stored, or parked in a hold (R45). -/
structure WindowEnds (i : StationIx) (r : WindowResult) (s t : State) : Prop where
  window : t.measure.windows[i.val] = none
  parked : s.link.hold = true → t.measure.parked[i.val] = some r ∧ (t.work i).flow = (s.work i).flow
  stored : s.link.hold = false →
    t.measure.parked[i.val] = s.measure.parked[i.val] ∧ (t.work i).flow = recordBy (s.work i).flow r

theorem handFlow_ends (i : StationIx) (r : WindowResult) (s : State) :
    WindowEnds i r s (handFlow plain i r (setWindow i none s)) := by
  unfold handFlow
  split
  case isTrue hold =>
    exact ⟨Vector.getElem_set_self .., fun _ => ⟨Vector.getElem_set_self .., rfl⟩,
      fun e => nomatch e.symm.trans hold⟩
  case isFalse hold =>
    have measure := (storeFlow_table (setWindow i none s) i r).measure
    refine ⟨?_, fun e => absurd e hold, fun _ => ⟨?_, storeFlow_own ..⟩⟩
    · rw [measure]
      exact Vector.getElem_set_self ..
    · rw [measure]
      rfl

theorem flowStep_fault (h : (dpInput s i).status = .fault) :
    flowStep i plain s = handFlow plain i (.invalid (bankClock s)) (setWindow i none s) := by
  have none : inputValue 4000 (dpInput s i) = none := by unfold inputValue; rw [h]
  rw [flowStep_plain, none]
  exact if_pos h

/-- The window of a station with this conversion's value in it (R43). -/
def windowWith (i : StationIx) (v : Nat) (s : State) : FlowWindow :=
  extendWindow s.settings.bank.windowLength v ((dpInput s i).status = .saturated) s.measure.windows[i.val]

theorem flowStep_value {v : Nat} (h : inputValue 4000 (dpInput s i) = some v) : flowStep i plain s =
    if (windowWith i v s).length ≤ (windowWith i v s).count then
      handFlow plain i (windowRecord (s.cfg i).k (methaneFor s i) (windowWith i v s) (bankClock s)) (setWindow i none s)
    else setWindow i (some (windowWith i v s)) s := by
  rw [flowStep_plain, h]
  rfl

/-- A flow step that reports no fault writes at most the station's flow record. -/
structure FlowOnly (i : StationIx) (s t : State) : Prop where
  work : ∃ f, t.work i = { s.work i with flow := f }
  drive : t.drive = s.drive
  events : t.events = s.events

theorem FlowOnly.refl (i : StationIx) (s : State) : FlowOnly i s s := ⟨⟨_, rfl⟩, rfl, rfl⟩

theorem storeFlow_quiet (h : (s.work i).state.active = false ∨ ∃ q dp sat clamped time, r = .valid q dp sat clamped time) :
    FlowOnly i s (storeFlow plain i r s) := by
  cases r with
  | valid q dp sat clamped time => exact ⟨⟨_, setWork_work_same s i _⟩, rfl, rfl⟩
  | invalid time =>
    have inactive := h.resolve_right fun ⟨_, _, _, _, _, e⟩ => nomatch e
    have own : (flowInvalid i time s).work i =
      { s.work i with flow := { (s.work i).flow with valid := false, time := time } } := setWork_work_same s i _
    rw [storeFlow_invalid, faultReport_none (by rw [own]; exact inactive)]
    exact ⟨⟨_, own⟩, rfl, rfl⟩

theorem handFlow_quiet (h : (s.work i).state.active = false ∨ ∃ q dp sat clamped time, r = .valid q dp sat clamped time) :
    FlowOnly i s (handFlow plain i r (setWindow i none s)) := by
  unfold handFlow
  split
  · exact ⟨⟨_, rfl⟩, rfl, rfl⟩
  · have stored := storeFlow_quiet (s := setWindow i none s) (i := i) (r := r) h
    exact ⟨stored.work, stored.drive, stored.events⟩

/-- Where the station is not sampled, or its loop is not broken, its flow step moves neither it nor the drive. -/
theorem flowStep_quiet (h : (s.work i).state.active = false ∨ (dpInput s i).status ≠ .fault) :
    FlowOnly i s (flowStep i plain s) := by
  rw [flowStep_plain]
  split
  · split
    case isTrue fault => exact handFlow_quiet (.inl (h.resolve_right fun e => e fault))
    case isFalse => exact .refl i s
  · dsimp only
    split
    · exact handFlow_quiet (.inr ⟨_, _, _, _, _, rfl⟩)
    · exact ⟨⟨_, rfl⟩, rfl, rfl⟩

/-- A broken loop faults a sampled station outside a hold (R33, R25). -/
theorem flowStep_faulted (fault : (dpInput s i).status = .fault) (hold : s.link.hold = false)
    (active : (s.work i).state.active = true) :
    ((flowStep i plain s).work i).state = .faulted .flowLine ∧ ((flowStep i plain s).work i).target = 0 := by
  have own : (flowInvalid i (bankClock s) (setWindow i none s)).work i =
      { s.work i with flow := { (s.work i).flow with valid := false, time := bankClock s } } :=
    setWork_work_same (setWindow i none s) i _
  have taken : faultTaken .flowLine ((flowInvalid i (bankClock s) (setWindow i none s)).work i).state
      (motionStatus (flowInvalid i (bankClock s) (setWindow i none s)) i) = true := by rw [own]; exact active
  rw [flowStep_fault fault, handFlow, if_neg (by rw [show (setWindow i none s).link = s.link from rfl, hold]; exact Bool.false_ne_true),
    storeFlow_invalid]
  exact ⟨(faultReport_own taken).state, (faultReport_own taken).target⟩

theorem stepFlows_grows {l : List EventRecord} (h : l <+: s.events.queue) :
    l <+: (stepFlows plainly s).events.queue := by
  rw [stepFlows_eq]
  refine forStations_keeps (P := fun t => l <+: t.events.queue) (fun i t ht => ?_) h
  have hands (r : WindowResult) : l <+: (handFlow plain i r (setWindow i none t)).events.queue := by
    unfold handFlow
    split
    · exact ht
    · exact (grown_steady l).storeFlow r (s := setWindow i none t) ht
  rw [flowStep_plain]
  split
  · split
    · exact hands _
    · exact ht
  · dsimp only
    split
    · exact hands _
    · exact ht

end Flows

end Sys2Proof.Proofs
end

section
/-! A conversion (R36, R40), assembled from its steps. -/

namespace Sys2Proof.Proofs

open Sys2Proof Sys2Proof.Machine Sys2Proof.Laws

/-! ### A trip leaves a station whose position is absent at rest (R143) -/

section TripAtRest

variable {s t : State} {i : StationIx}

theorem AtRest.of_drive (h : AtRest i s) (hd : t.drive = s.drive) : AtRest i t := by
  unfold AtRest motionOf queued
  rw [hd]
  exact h

theorem foldl_untouched {α : Type} {f : State → α → State} {l : List α} (h : ∀ a ∈ l, ∀ t, Untouched i t (f t a)) (s : State) :
    Untouched i s (l.foldl f s) := by
  induction l generalizing s with
  | nil => exact .refl i s
  | cons a rest ih =>
    exact (h a List.mem_cons_self s).trans (ih (fun b hb => h b (List.mem_cons_of_mem _ hb)) _)

theorem standDownAll_drive (s : State) : (standDownAll plainly s).drive = s.drive := by
  unfold standDownAll
  simp only [plainly_eq]
  refine forStations_keeps (P := fun t => t.drive = s.drive) (fun i t ht => ?_) rfl
  rw [standDown_plain]
  split
  · exact ht
  · exact ht

theorem startSampler_drive (s : State) : (startSampler plain s).drive = s.drive := by
  rw [startSampler_samplerOnly]

/-- The trip order examines stations with a position alone, and drives none that has no motion (R143). -/
theorem tripOrder_atRest (changed : List StationIx) (h : AtRest i s) (absent : (s.work i).position = none) :
    AtRest i (tripOrder plain changed s) := by
  have emptied : AtRest i (flushed s) := ⟨h.1, rfl⟩
  have turned : Untouched i (flushed s) (closing s) := by
    refine foldl_untouched (fun m hm t => retarget_untouched (fun e => ?_) 0 t) (flushed s)
    exact motionOf_none_iff.1 h.1 (List.mem_map.2 ⟨m, hm, e.symm⟩)
  have unexamined : tripOrderExamines (closing s) i = false := by
    unfold tripOrderExamines
    rw [turned.work, show (flushed s).work i = s.work i from rfl, absent]
    simp
  have other {j : StationIx} (hj : tripOrderExamines (closing s) j = true) : i ≠ j := by
    rintro rfl
    exact nomatch unexamined.symm.trans hj
  rw [tripOrder_plain]
  have closed := foldl_untouched (i := i) (f := fun t j => queueMove plain j 0 t) (l := closeOrder (closing s))
    (fun j hj t => queueMove_untouched (other (Bool.and_eq_true_iff.1
      (List.mem_filter.1 ((List.mem_insertionSort _).1 hj)).2).1) 0 t) (closing s)
  have reported := fun (l : List StationIx) (hl : ∀ j ∈ l, tripOrderExamines (closing s) j = true) (t : State) =>
    foldl_untouched (i := i) (f := fun t j => reportCompleted plain j 0 t) (l := l)
      (fun j hj t => reportCompleted_untouched (other (hl j hj)) 0 t) t
  have granted {u : State} (hu : AtRest i u) : AtRest i (grantTest plain u) := hu.untouched (grantTest_untouched hu.2)
  refine granted (emptied.untouched (turned.trans (closed.trans (reported _ (fun j hj => ?_) _))))
  have examined := (List.mem_filter.1 hj).2
  simp only [Bool.and_eq_true] at examined
  exact examined.1.1

theorem trip_atRest (o : TripOrigin) (h : AtRest i s) (absent : (s.work i).position = none) :
    AtRest i (trip plainly o s) := by
  have stood := (h.of_drive (t := tripUnit o s) rfl).of_drive (standDownAll_drive (tripUnit o s))
  have absent : ((standDownAll plainly (tripUnit o s)).work i).position = none :=
    (standDownAll_stoodDown (tripUnit o s) i).position.trans absent
  rw [trip_plainly]
  exact (tripOrder_atRest _ stood absent).of_drive (startSampler_drive _)

theorem followed_drive (s : State) : (followOutput (refreshOutput s)).drive = s.drive := by
  unfold followOutput
  split
  · rfl
  · split <;> rfl

theorem evaluateTrip_atRest (need : State → List Nat) (h : AtRest i s) (absent : (s.work i).position = none) :
    AtRest i (evaluateTrip plainly need s) := by
  have followed := h.of_drive (followed_drive s)
  rcases evaluateTrip_cases need s with e | e
  · rw [e]
    exact followed
  · have tripped := trip_atRest .function followed (by rw [followed_work]; exact absent)
    rw [e, tripAndRefresh]
    generalize trip plainly .function (followOutput (refreshOutput s)) = u at tripped ⊢
    exact tripped.of_drive rfl

end TripAtRest

/-! ### The conversion step by step -/

section Conversion

variable {s t : State} {i : StationIx} {codes : Vector Code 35} {m : Motion}

/-- The part at the instant of its conversion, with the next one set (R36, log 1). -/
def atConversion (s : State) : State :=
  { passUntil (conversionInstant s) s with conversionDue := conversionInstant s + 1000 }

/-- The conversion up to the stored positions (R36, R39, R41). -/
def positioned (codes : Vector Code 35) (s : State) : State :=
  storePositions plain (lineEvents s.measure.inputs (readInputs codes s))

/-- The conversion up to the motions (R34, R131). -/
def driven (codes : Vector Code 35) (s : State) : State := movePositions plainly (reportPositions plain (positioned codes s))

/-- The whole conversion (R40). -/
def converted (codes : Vector Code 35) (s : State) : State := stepFlows plainly (driven codes s)

theorem convert_eq (codes : Vector Code 35) (s : State) : convert plainly codes s = converted codes s := by
  rw [convert_plainly]
  rfl

theorem exec_conversion (codes : Vector Code 35) (h : Undisturbed s) :
    exec (.conversion codes) s = .next (evaluateTrip plainly noWords (converted codes (atConversion s))) := by
  have clean : (atConversion s).memory.Clean := h.2
  refine (perform_powered (runConversion codes) h.1).trans (congrArg Host.Outcome.next ?_)
  unfold runConversion
  change judge s (convert checked codes (atConversion s)) = _
  rw [convert_clean codes clean, judge_clean s ((convert_part _ codes).clean clean), convert_eq]

theorem atConversion_part (s : State) : Silent s (atConversion s) := ⟨⟨rfl, rfl, rfl, rfl, rfl, rfl, fun _ => rfl⟩, rfl, rfl, rfl⟩

theorem atConversion_elapsed (s : State) : (atConversion s).elapsed = conversionInstant s := by
  change max s.elapsed (max s.conversionDue ((s.elapsed + 999) / 1000 * 1000)) = max s.conversionDue ((s.elapsed + 999) / 1000 * 1000)
  omega

theorem readInputs_inputs (codes : Vector Code 35) (s : State) :
    (readInputs codes s).measure.inputs = codes.map (convertCode (bankClock s)) := rfl

theorem inputs_of (k : Fin 35) (h : t.measure.inputs = codes.map (convertCode (bankClock s))) :
    t.measure.inputs[k.val] = convertCode (bankClock s) codes[k.val] := by
  rw [h]
  exact Vector.getElem_map ..

theorem lineEvents_readInputs (codes : Vector Code 35) (s : State) :
    EventsOnly (readInputs codes s) (lineEvents s.measure.inputs (readInputs codes s)) :=
  (lineEvents_queue s.measure.inputs codes (bankClock s) (readInputs_inputs codes s)).1

/-- Up to the stored positions a conversion changes the input table, the events and the positions alone. -/
theorem positioned_only (codes : Vector Code 35) (s : State) : positioned codes s =
    { s with
      measure := (readInputs codes s).measure, stations := (positioned codes s).stations
      events := (lineEvents s.measure.inputs (readInputs codes s)).events } := by
  have raised := lineEvents_readInputs codes s
  unfold positioned
  rw [storePositions_eq, placed_only, raised]
  rfl

theorem positioned_work (codes : Vector Code 35) (s : State) (j : StationIx) : (positioned codes s).work j =
    { s.work j with position := inputValue 1000 (convertCode (bankClock s) codes[j.val + 16]) } := by
  have raised := lineEvents_readInputs codes s
  have input : (lineEvents s.measure.inputs (readInputs codes s)).measure.inputs[j.val + 16] =
      convertCode (bankClock s) codes[j.val + 16] := by
    rw [raised]
    exact Vector.getElem_map ..
  unfold positioned
  rw [storePositions_eq, placed_work, input, raised]
  rfl

theorem positioned_queue (codes : Vector Code 35) (s : State) : (positioned codes s).events.queue =
    (lineEvents s.measure.inputs (readInputs codes s)).events.queue := by rw [positioned_only]

theorem driven_table (codes : Vector Code 35) (s : State) : TableChange (positioned codes s) (driven codes s) :=
  .trans (t := reportPositions plain (positioned codes s)) (by
    rw [reportPositions_eq]
    exact .forStations (fun i t => .ite (fun _ => faultReport_table ..) fun _ => .refl t) _) (movePositions_table _)

theorem driven_fixed (codes : Vector Code 35) (s : State) : Fixed (positioned codes s) (driven codes s) :=
  (reportPositions_fixed _).trans (movePositions_fixed _)

theorem eventsOnly_part {t : State} (h : EventsOnly s t) : PartChange s t := by
  unfold EventsOnly at h
  rw [h]
  exact ⟨rfl, fun _ => rfl⟩

theorem placed_table (inputs : Vector InputEntry 35) (s : State) : TableChange s (forStations (placed inputs) s) :=
  .forStations (fun i t => setWork_table t i _) s

theorem positioned_part (codes : Vector Code 35) (s : State) : PartChange s (positioned codes s) := by
  have read : PartChange s (readInputs codes s) := ⟨rfl, fun _ => rfl⟩
  have raised := read.trans (eventsOnly_part (lineEvents_readInputs codes s))
  unfold positioned
  rw [storePositions_eq]
  generalize lineEvents s.measure.inputs (readInputs codes s) = u at raised ⊢
  exact raised.trans (.ofTable (placed_table _ u))

theorem converted_apart (codes : Vector Code 35) (s : State) : FlowApart (positioned codes s) (converted codes s) :=
  (FlowApart.of_fixed (driven_table codes s) (driven_fixed codes s)).trans (stepFlows_apart _)

theorem converted_inputs (codes : Vector Code 35) (s : State) :
    (converted codes s).measure.inputs = codes.map (convertCode (bankClock s)) := by
  rw [(converted_apart codes s).inputs, positioned_only]
  rfl

theorem converted_position (codes : Vector Code 35) (s : State) (j : StationIx) : ((converted codes s).work j).position =
    inputValue 1000 (convertCode (bankClock s) codes[j.val + 16]) := by
  rw [(converted_apart codes s).position, positioned_work]

/-- The line events of a conversion, in ascending input number (R39, log 16). -/
def lineEdges (codes : Vector Code 35) (s : State) : List EventRecord :=
  allStations.filterMap (fun i => lineEdge s .flowLine i s.measure.inputs[i.val].status codes[i.val].toNat) ++
    allStations.filterMap fun i => lineEdge s .positionLine i s.measure.inputs[i.val + 16].status codes[i.val + 16].toNat

theorem converted_events (room : s.events.queue.length + (lineEdges codes s).length ≤ 24) :
    s.events.queue ++ lineEdges codes s <+: (converted codes s).events.queue := by
  have raised : (lineEvents s.measure.inputs (readInputs codes s)).events.queue = s.events.queue ++ lineEdges codes s :=
    (lineEvents_queue s.measure.inputs codes (bankClock s) (readInputs_inputs codes s)).2 room
  have steady := grown_steady (s.events.queue ++ lineEdges codes s)
  have stored : s.events.queue ++ lineEdges codes s <+: (positioned codes s).events.queue := by
    rw [positioned_queue, raised]
  unfold converted driven
  exact stepFlows_grows (steady.movePositions (steady.reportPositions stored))

/-! ### A station's windows and record -/

/-- A conversion comes once to a station's flow window, with what it has made of the rest of the part. -/
theorem converted_visits (i : StationIx) (codes : Vector Code 35) (s : State) :
    ∃ u, FlowElse i (driven codes s) u ∧ FlowElse i (flowStep i plain u) (converted codes s) := stepFlows_visits i _

/-- What a station's flow step finds of the state before the conversion. -/
structure FlowFound (i : StationIx) (codes : Vector Code 35) (s u : State) : Prop where
  input : dpInput u i = convertCode (bankClock s) codes[i.val]
  clock : bankClock u = bankClock s
  link : u.link = s.link
  settings : u.settings = s.settings
  cfg : u.cfg i = s.cfg i
  quality : (u.work i).quality = (s.work i).quality
  flow : (u.work i).flow = (s.work i).flow
  window : u.measure.windows[i.val] = s.measure.windows[i.val]
  parked : u.measure.parked[i.val] = s.measure.parked[i.val]

theorem flowFound {u : State} (h : FlowElse i (driven codes s) u) : FlowFound i codes s u := by
  have table := driven_table codes s
  have fixed := driven_fixed codes s
  have only := positioned_only codes s
  have part := ((positioned_part codes s).trans (.ofTable table)).trans h.apart.part
  have work := positioned_work codes s i
  refine ⟨?_, ?_, ?_, part.kept.2.2.2.1, part.cfg i, ?_, ?_, ?_, ?_⟩
  · rw [dpInput, h.apart.inputs, table.measure, only]
    exact Vector.getElem_map ..
  · rw [bankClock, bankClock, part.elapsed]
  · rw [h.apart.link, table.link, only]
  · rw [h.apart.quality, fixed.quality, work]
  · rw [h.flow, fixed.flow, work]
  · rw [h.window, table.measure, only]
    rfl
  · rw [h.parked, table.measure, only]
    rfl

end Conversion

end Sys2Proof.Proofs
end

section
/-! What a conversion hands on to each station (R33, R34, R36, R39 to R45). -/

namespace Sys2Proof.Proofs

open Sys2Proof Sys2Proof.Machine Sys2Proof.Laws

section HandsOn

variable {s t u : State} {i : StationIx} {codes : Vector Code 35} {m : Motion} {v : Nat}

/-! ### The flow windows -/

theorem WindowEnds.behind {r : WindowResult} {t' : State} (h : WindowEnds i r u t) (found : FlowFound i codes s u)
    (k : FlowElse i t t') : WindowEnds i r s t' where
  window := k.window.trans h.window
  parked hold := by
    obtain ⟨parked, flow⟩ := h.parked (by rw [found.link]; exact hold)
    exact ⟨k.parked.trans parked, (k.flow.trans flow).trans found.flow⟩
  stored hold := by
    obtain ⟨parked, flow⟩ := h.stored (by rw [found.link]; exact hold)
    exact ⟨(k.parked.trans parked).trans found.parked, (k.flow.trans flow).trans (by rw [found.flow])⟩

/-- A loop on FAULT discards its station's window with an invalid record (R44). -/
theorem converted_fault (hc : codes[i.val].toNat ≤ 736) :
    WindowEnds i (.invalid (bankClock s)) s (converted codes s) := by
  obtain ⟨u, before, after⟩ := converted_visits i codes s
  have found := flowFound before
  have fault : (dpInput u i).status = .fault := by rw [found.input]; exact statusOfCode_fault.2 hc
  have ends := handFlow_ends i (.invalid (bankClock u)) u
  rw [← flowStep_fault fault, found.clock] at ends
  exact ends.behind found after

/-- The window of a station with the value of a conversion in it (R43). -/
def windowAfter (codes : Vector Code 35) (s : State) (i : StationIx) (v : Nat) : FlowWindow :=
  extendWindow s.settings.bank.windowLength v (codes[i.val].toNat = 4095) s.measure.windows[i.val]

theorem windowWith_found (found : FlowFound i codes s u) : windowWith i v u = windowAfter codes s i v := by
  have saturated : (dpInput u i).status = .saturated ↔ codes[i.val].toNat = 4095 := by
    rw [found.input]
    exact statusOfCode_saturated_iff (code_le _)
  unfold windowWith windowAfter
  rw [found.settings, found.window]
  simp only [saturated]

/-- A window that has not its length goes on (R43). -/
theorem converted_goes (hv : inputValue 4000 (convertCode (bankClock s) codes[i.val]) = some v)
    (short : (windowAfter codes s i v).count < (windowAfter codes s i v).length) :
    (converted codes s).measure.windows[i.val] = some (windowAfter codes s i v) ∧
      (converted codes s).measure.parked[i.val] = s.measure.parked[i.val] ∧
      ((converted codes s).work i).flow = (s.work i).flow := by
  obtain ⟨u, before, after⟩ := converted_visits i codes s
  have found := flowFound before
  have step := flowStep_value (s := u) (i := i) (v := v) (by rw [found.input]; exact hv)
  rw [windowWith_found found, if_neg (Nat.not_le.2 short)] at step
  rw [step] at after
  exact ⟨after.window.trans (Vector.getElem_set_self ..), after.parked.trans found.parked, after.flow.trans found.flow⟩

/-- A window that has its length ends with its record (R43, R46). -/
theorem converted_ends (hv : inputValue 4000 (convertCode (bankClock s) codes[i.val]) = some v)
    (full : (windowAfter codes s i v).length ≤ (windowAfter codes s i v).count) :
    WindowEnds i (windowRecord (s.cfg i).k (methaneFor s i) (windowAfter codes s i v) (bankClock s)) s (converted codes s) := by
  obtain ⟨u, before, after⟩ := converted_visits i codes s
  have found := flowFound before
  have step := flowStep_value (s := u) (i := i) (v := v) (by rw [found.input]; exact hv)
  have methane : methaneFor u i = methaneFor s i := by rw [methaneFor, methaneFor, found.quality]
  rw [windowWith_found found, if_pos full, found.cfg, methane, found.clock] at step
  rw [step] at after
  exact (handFlow_ends i _ u).behind found after

/-! ### Stations that are faulted -/

theorem Untouched.status (h : Untouched i s t) : motionStatus t i = motionStatus s i := by
  unfold motionStatus
  rw [h.motion, h.queued]

theorem atRest_iff : motionStatus s i = .none ↔ AtRest i s := motionStatus_none_iff

/-- A station at rest is left alone by the work at others. -/
theorem AtRest.bystander (h : AtRest i s) (k : Bystander i s t) : AtRest i t ∧ t.work i = s.work i :=
  ⟨h.untouched (k.untouched (.inl h.2)), (k.untouched (.inl h.2)).work⟩

theorem positioned_status (codes : Vector Code 35) (s : State) (i : StationIx) :
    motionOf (positioned codes s) i = motionOf s i ∧ queued (positioned codes s) i = queued s i ∧
      (positioned codes s).bank = s.bank := by
  have drive : (positioned codes s).drive = s.drive := by rw [positioned_only]
  have bank : (positioned codes s).bank = s.bank := by rw [positioned_only]
  exact ⟨by rw [motionOf, motionOf, drive], by rw [queued, queued, drive], bank⟩

/-- A station at rest behind the reports of positions goes through the motions and its flow step with its state and target, where
it is not sampled or its loop is not broken. -/
theorem converted_atRest (rest : AtRest i (reportPositions plain (positioned codes s)))
    (quiet : ((reportPositions plain (positioned codes s)).work i).state.active = false ∨ 736 < codes[i.val].toNat) :
    AtRest i (converted codes s) ∧
      ∃ f, (converted codes s).work i = { (reportPositions plain (positioned codes s)).work i with flow := f } := by
  obtain ⟨u, before, after⟩ := converted_visits i codes s
  have found := flowFound before
  obtain ⟨rest', work'⟩ := rest.bystander ((movePositions_bystander rest.1).trans before.bystander)
  have step : FlowOnly i u (flowStep i plain u) := flowStep_quiet (quiet.imp (by rw [work']; exact id) fun good fault => by
    rw [found.input] at fault
    exact Nat.not_le.2 good (statusOfCode_fault.1 fault))
  obtain ⟨f, own⟩ := step.work
  obtain ⟨rest'', work''⟩ := (rest'.of_drive step.drive).bystander after.bystander
  exact ⟨rest'', f, by rw [work'', own, work']⟩

/-- An absent position faults a station that has no motion (R34, R25, R26). -/
theorem converted_positionFault (hc : codes[i.val + 16].toNat ≤ 736)
    (state : (s.work i).state = .standby ∨ (s.work i).state.active = true)
    (still : motionStatus s i = .none ∨ motionStatus s i = .queued ∧ s.bank.mode = .idle) :
    ((converted codes s).work i).state = .faulted .positionLine ∧ ((converted codes s).work i).target = 0 ∧
      AtRest i (converted codes s) := by
  obtain ⟨motion, queue, bank⟩ := positioned_status codes s i
  have calm : queued (positioned codes s) i = false ∨ (positioned codes s).bank.mode = .idle := by
    rw [queue, bank]
    exact still.imp (fun e => (motionStatus_none_iff.1 e).2) And.right
  obtain ⟨u, before, after⟩ := reportPositions_visits i (positioned codes s)
  have untouched := before.untouched calm
  have status : motionStatus u i = motionStatus s i := untouched.status.trans (by rw [motionStatus, motionStatus, motion, queue])
  have own : u.work i = { s.work i with position := inputValue 1000 (convertCode (bankClock s) codes[i.val + 16]) } :=
    untouched.work.trans (positioned_work codes s i)
  have taken : faultTaken .positionLine (u.work i).state (motionStatus u i) = true := by
    rw [status, own]
    rcases state with e | e <;> rcases still with e' | ⟨e', -⟩ <;> simp [faultTaken, e, e']
  obtain ⟨faulted, rest⟩ := reportPosition_taken (s := u) (by rw [own]; exact inputValue_none_iff.2 hc) taken
  obtain ⟨rest, work⟩ := rest.bystander after
  have inactive : ((reportPositions plain (positioned codes s)).work i).state.active = false := by
    rw [work]
    exact faulted.inactive
  obtain ⟨rest', f, work'⟩ := converted_atRest rest (.inl inactive)
  exact ⟨by rw [work', work]; exact faulted.state, by rw [work', work]; exact faulted.target, rest'⟩

/-- A station with a position and no motion goes through the reports of positions (R34). -/
theorem reported_present {p : Nat} (hp : inputValue 1000 (convertCode (bankClock s) codes[i.val + 16]) = some p)
    (calm : queued s i = false) :
    Untouched i (positioned codes s) (reportPositions plain (positioned codes s)) := by
  obtain ⟨motion, queue, bank⟩ := positioned_status codes s i
  obtain ⟨u, before, after⟩ := reportPositions_visits i (positioned codes s)
  have first := before.untouched (.inl (queue.trans calm))
  have same : reportPosition i u = u := reportPosition_present (p := p) (by rw [first.work, positioned_work]; exact hp)
  rw [same] at after
  exact first.trans (after.untouched (.inl ((first.queued.trans queue).trans calm)))

/-- A broken flow loop faults a sampled station at rest outside a hold (R33, R25). -/
theorem converted_flowFault (hc : codes[i.val].toNat ≤ 736) (present : 736 < codes[i.val + 16].toNat)
    (hold : s.link.hold = false) (active : (s.work i).state.active = true) (still : motionStatus s i = .none) :
    ((converted codes s).work i).state = .faulted .flowLine ∧ ((converted codes s).work i).target = 0 := by
  obtain ⟨p, hp⟩ : ∃ p, inputValue 1000 (convertCode (bankClock s) codes[i.val + 16]) = some p :=
    Option.ne_none_iff_exists'.1 fun e => Nat.not_le.2 present (inputValue_none_iff.1 e)
  obtain ⟨motion, queue, bank⟩ := positioned_status codes s i
  obtain ⟨motionless, calm⟩ := motionStatus_none_iff.1 still
  have first := reported_present hp calm
  have rest : AtRest i (reportPositions plain (positioned codes s)) :=
    AtRest.untouched ⟨motion.trans motionless, queue.trans calm⟩ first
  obtain ⟨u, before, after⟩ := converted_visits i codes s
  have found := flowFound before
  have work := (rest.bystander ((movePositions_bystander rest.1).trans before.bystander)).2
  have work : u.work i = { s.work i with position := inputValue 1000 (convertCode (bankClock s) codes[i.val + 16]) } :=
    work.trans (first.work.trans (positioned_work codes s i))
  have faulted := flowStep_faulted (s := u) (i := i) (by rw [found.input]; exact statusOfCode_fault.2 hc)
    (by rw [found.link]; exact hold) (by rw [work]; exact active)
  have seen : ((flowStep i plain u).work i).position = some p := by
    rw [(flowStep_apart i u).position, work]
    exact hp
  have reported := after.bystander.reported (.inr (by rw [seen]; rfl))
  exact ⟨reported.state.trans faulted.1, reported.target.trans faulted.2⟩

end HandsOn

end Sys2Proof.Proofs
end

section
/-! A conversion hands its values on (R33 to R46). -/

namespace Sys2Proof.Proofs

open Sys2Proof Sys2Proof.Machine Sys2Proof.Laws

section Conversion

variable {s t u : State} {i : StationIx} {codes : Vector Code 35} {r : WindowResult}

/-- What an entry shows behind a conversion (R36, R37). -/
theorem convertCode_ranges (now : Nat) (code : Code) :
    (code.toNat ≤ 736 → (convertCode now code).status = .fault ∧ ∀ span, inputValue span (convertCode now code) = none) ∧
    (737 ≤ code.toNat → code.toNat ≤ 818 →
      (convertCode now code).status = .zero ∧ ∀ span, inputValue span (convertCode now code) = some 0) ∧
    (819 ≤ code.toNat → code.toNat ≤ 4094 → (convertCode now code).status = .good ∧
      ∀ span, inputValue span (convertCode now code) = some ((code.toNat - 819) * span / 3276)) ∧
    (code.toNat = 4095 →
      (convertCode now code).status = .saturated ∧ ∀ span, inputValue span (convertCode now code) = some span) := by
  have shows {st : InputStatus} (e : statusOfCode code.toNat = st) : (convertCode now code).status = st := e
  refine ⟨fun h => ?_, fun h h' => ?_, fun h h' => ?_, fun h => ?_⟩
  · exact ⟨shows (statusOfCode_fault.2 h), fun span => inputValue_none_iff.2 h⟩
  · have e := shows (statusOfCode_zero h h')
    exact ⟨e, fun span => by rw [inputValue, e]⟩
  · have e := shows (statusOfCode_good h h')
    exact ⟨e, fun span => by rw [inputValue, e]; rfl⟩
  · have e := shows (statusOfCode_saturated (Nat.le_of_eq h.symm))
    exact ⟨e, fun span => by rw [inputValue, e]⟩

/-- An evaluation of the trip function leaves what a window handed on (R168). -/
theorem WindowEnds.evaluated (need : State → List Nat) (h : WindowEnds i r s t) : WindowEnds i r s (evaluateTrip plainly need t) where
  window := by rw [(evaluateTrip_apart need t).measure]; exact h.window
  parked hold := by rw [(evaluateTrip_apart need t).measure, (evaluateTrip_fixed need t).flow]; exact h.parked hold
  stored hold := by rw [(evaluateTrip_apart need t).measure, (evaluateTrip_fixed need t).flow]; exact h.stored hold

/-- A FAULTED station stays so through an evaluation of the trip function (R28). -/
theorem evaluateTrip_faulted {c : FaultCause} (need : State → List Nat) (state : (s.work i).state = .faulted c)
    (target : (s.work i).target = 0) :
    ((evaluateTrip plainly need s).work i).state = .faulted c ∧ ((evaluateTrip plainly need s).work i).target = 0 := by
  rcases evaluateTrip_work need s with same | stood
  · rw [same i]
    exact ⟨state, target⟩
  · exact ⟨((stood i).inactive (by rw [state]; rfl)).1.trans state, (stood i).target⟩

theorem methaneFor_eq (s : State) (i : StationIx) : methaneFor s i = ((s.work i).quality.map QualityResult.c).getD 0 := by
  unfold methaneFor
  split <;> rename_i e <;> rw [e] <;> rfl

theorem converted_part (codes : Vector Code 35) (s : State) : PartChange s (evaluateTrip plainly noWords (converted codes s)) :=
  ((positioned_part codes s).trans (converted_apart codes s).part).trans (evaluateTrip_part ..)

theorem bankClock_part (h : PartChange s t) : bankClock t = bankClock s := by rw [bankClock, bankClock, h.elapsed]

/-- The state behind a conversion, from the one its time has been passed to. -/
def concluded (codes : Vector Code 35) (s : State) : State := evaluateTrip plainly noWords (converted codes s)

theorem concluded_clock (codes : Vector Code 35) (s : State) : bankClock (concluded codes s) = bankClock s :=
  bankClock_part (converted_part codes s)

theorem concluded_input (codes : Vector Code 35) (s : State) (k : Fin 35) :
    (concluded codes s).measure.inputs[k.val] = convertCode (bankClock s) codes[k.val] := by
  have measure := (evaluateTrip_apart noWords (converted codes s)).measure
  exact inputs_of k (by rw [concluded, measure]; exact converted_inputs codes s)

theorem concluded_position (codes : Vector Code 35) (s : State) (i : StationIx) : ((concluded codes s).work i).position =
    inputValue 1000 (concluded codes s).measure.inputs[i.val + 16] := by
  rw [concluded_input codes s ⟨i.val + 16, by omega⟩, concluded, (evaluateTrip_fixed noWords _).position]
  exact converted_position codes s i

/-- A window that goes on (R43). -/
theorem concluded_goes {v : Nat} (hv : inputValue 4000 (convertCode (bankClock s) codes[i.val]) = some v)
    (short : (windowAfter codes s i v).count < (windowAfter codes s i v).length) :
    (concluded codes s).measure.windows[i.val] = some (windowAfter codes s i v) ∧
      (concluded codes s).measure.parked[i.val] = s.measure.parked[i.val] ∧
      ((concluded codes s).work i).flow = (s.work i).flow := by
  rw [concluded, (evaluateTrip_apart noWords _).measure, (evaluateTrip_fixed noWords _).flow]
  exact converted_goes hv short

theorem concluded_fault (hc : codes[i.val].toNat ≤ 736) :
    WindowEnds i (.invalid (bankClock s)) s (concluded codes s) := by
  unfold concluded
  exact (converted_fault hc).evaluated noWords

theorem concluded_ends {v : Nat} (hv : inputValue 4000 (convertCode (bankClock s) codes[i.val]) = some v)
    (full : (windowAfter codes s i v).length ≤ (windowAfter codes s i v).count) :
    WindowEnds i (windowRecord (s.cfg i).k (methaneFor s i) (windowAfter codes s i v) (bankClock s)) s (concluded codes s) := by
  unfold concluded
  exact (converted_ends hv full).evaluated noWords

/-- The events of the loops come first (R39). -/
theorem concluded_events (room : s.events.queue.length + (lineEdges codes s).length ≤ 24) :
    s.events.queue ++ lineEdges codes s <+: (concluded codes s).events.queue := by
  unfold concluded
  exact (converted_events room).trans (evaluateTrip_grows noWords (converted codes s))

/-- A broken flow loop faults a sampled station at rest outside a hold (R33, R25). -/
theorem concluded_flowFault (hc : codes[i.val].toNat ≤ 736) (present : 736 < codes[i.val + 16].toNat)
    (hold : s.link.hold = false) (active : (s.work i).state.active = true) (still : motionStatus s i = .none) :
    ((concluded codes s).work i).state = .faulted .flowLine ∧ ((concluded codes s).work i).target = 0 := by
  obtain ⟨faulted, target⟩ := converted_flowFault hc present hold active still
  unfold concluded
  exact evaluateTrip_faulted noWords faulted target

/-- An absent position faults a station that has no motion, and leaves it at rest (R34, R25). -/
theorem concluded_positionFault (hc : codes[i.val + 16].toNat ≤ 736)
    (state : (s.work i).state = .standby ∨ (s.work i).state.active = true)
    (still : motionStatus s i = .none ∨ motionStatus s i = .queued ∧ s.bank.mode = .idle) :
    ((concluded codes s).work i).state = .faulted .positionLine ∧ ((concluded codes s).work i).target = 0 ∧
      motionStatus (concluded codes s) i = .none := by
  obtain ⟨faulted, target, rest⟩ := converted_positionFault hc state still
  obtain ⟨faulted, target⟩ := evaluateTrip_faulted noWords faulted target
  refine ⟨faulted, target, atRest_iff.2 (evaluateTrip_atRest noWords rest ?_)⟩
  rw [converted_position]
  exact inputValue_none_iff.2 hc

theorem silent_trans (h : Silent s t) (k : Silent t u) : Silent s u := by
  obtain ⟨⟨h1, h2, h3, h4, h5, h6, h7⟩, control, monitor, pins⟩ := h
  obtain ⟨⟨k1, k2, k3, k4, k5, k6, k7⟩, control', monitor', pins'⟩ := k
  exact ⟨⟨k1.trans h1, k2.trans h2, k3.trans h3, k4.trans h4, k5.trans h5, k6.trans h6, fun j => (k7 j).trans (h7 j)⟩,
    control'.trans control, monitor'.trans monitor, pins'.trans pins⟩

/-- The part a conversion begins from differs from `s` in the time and the next conversion alone. -/
structure Begun (s b : State) : Prop where
  silent : Silent s b
  work : ∀ j : StationIx, b.work j = s.work j
  measure : b.measure = s.measure
  settings : b.settings = s.settings
  cfg : ∀ j : StationIx, b.cfg j = s.cfg j
  status : ∀ j : StationIx, motionStatus b j = motionStatus s j
  bank : b.bank = s.bank
  link : b.link = s.link
  balancer : b.balancer = s.balancer
  events : b.events = s.events
  elapsed : b.elapsed = conversionInstant s
  due : b.conversionDue = conversionInstant s + 1000

theorem atConversion_begun (s : State) : Begun s (atConversion s) :=
  ⟨atConversion_part s, fun _ => rfl, rfl, rfl, fun _ => rfl, fun _ => rfl, rfl, rfl, rfl, rfl, atConversion_elapsed s, rfl⟩

theorem Begun.methane {b : State} (h : Begun s b) (i : StationIx) :
    methaneFor b i = ((s.work i).quality.map QualityResult.c).getD 0 := by rw [methaneFor_eq, h.work]

theorem Begun.window {b : State} (h : Begun s b) (i : StationIx) (v : Nat) : windowAfter codes b i v = windowAfter codes s i v := by
  rw [windowAfter, windowAfter, h.settings, h.measure]

/-- The window of a station as the record ends it (R43, R44). -/
theorem Begun.ends {b : State} (h : Begun s b) (k : WindowEnds i r b t) : WindowEnds i r s t where
  window := k.window
  parked hold := by rw [← h.work]; exact k.parked (by rw [h.link]; exact hold)
  stored hold := by rw [← h.work, ← h.measure]; exact k.stored (by rw [h.link]; exact hold)

/-- Settles O48. -/
theorem conversionHandsOn : Obligations.ConversionHandsOn := by
  unfold Obligations.ConversionHandsOn
  intro codes s h
  have run : exec (.conversion codes) s = .next (concluded codes (atConversion s)) := exec_conversion codes h
  have begun := atConversion_begun s
  generalize atConversion s = b at run begun
  have part : PartChange b (concluded codes b) := converted_part codes b
  have clock := concluded_clock codes b
  have apart := evaluateTrip_apart noWords (converted codes b)
  have kept := converted_apart codes b
  have placed := positioned_only codes b
  have current : Current (concluded codes b) := current_evaluateTrip_plainly noWords (converted codes b)
  refine ⟨_, run, part.elapsed.trans begun.elapsed, ?_, fun k => ?_, fun i => concluded_position codes b i, ?_, ?_,
    current, silent_trans begun.silent part.silent, ?_, ?_⟩
  · rw [part.conversionDue, part.elapsed, begun.elapsed, begun.due]
  · dsimp only
    rw [concluded_input codes b k, clock]
    exact ⟨rfl, rfl, convertCode_ranges _ _⟩
  · intro edge edges room
    have same : edges = lineEdges codes b := by
      dsimp only [edges, edge, lineEdges, lineEdge]
      rw [clock]
      simp only [begun.work, begun.measure]
    rw [same, ← begun.events] at room ⊢
    have grown : b.events.queue ++ lineEdges codes b <+: (concluded codes b).events.queue :=
      concluded_events room
    obtain ⟨l, hl⟩ := grown
    exact ⟨l, hl.symm⟩
  · intro i c ends
    have code := concluded_input codes b ⟨i.val, by omega⟩
    rw [clock, code, ← begun.bank, ← begun.status i]
    refine ⟨fun hc => ?_, fun v hv => ?_, fun hc state still => ?_,
      fun hc present hold active still => ?_⟩
    · obtain ⟨window, parked, stored⟩ := begun.ends (concluded_fault hc)
      exact ⟨window, parked, stored⟩
    · intro w
      have same : windowAfter codes s i v = w := by
        dsimp only [w]
        unfold windowAfter extendWindow
        cases s.measure.windows[i.val] <;> rfl
      clear_value w
      refine ⟨fun short => ?_, fun full q dp sat clamped record => ?_⟩
      · have goes := concluded_goes hv (by rw [begun.window, same]; exact short)
        rw [begun.window, begun.measure, begun.work, same] at goes
        exact goes
      · have k := begun.ends (concluded_ends hv (by rw [begun.window, same]; exact full))
        rw [begun.window, begun.cfg, begun.methane, same, record] at k
        obtain ⟨window, parked, stored⟩ := k
        exact ⟨window, parked, stored⟩
    · exact concluded_positionFault hc (by rw [begun.work]; exact state) still
    · exact concluded_flowFault hc present (by rw [begun.link]; exact hold) (by rw [begun.work]; exact active) still
  · rw [concluded, apart.link, kept.link, placed]
    exact begun.link
  · rw [concluded, apart.balancer, kept.balancer, placed]
    exact begun.balancer

end Conversion

end Sys2Proof.Proofs
end

section
/-! The timers of the valve drive (chapter 6): the grant behind a start gap, the periods and pulses of an inching, the end of a
reversal pause, and the endings by a miss or a timeout. -/

namespace Sys2Proof.Proofs

open Sys2Proof Sys2Proof.Machine Sys2Proof.Laws

/-! ### Endings (R135 to R138) -/

section Endings

variable {s t : State} {i : StationIx} {m : Motion} {kind : EventKind} {c : FaultCause}

/-- The drive holds nothing twice for a station in motion, so it has no entry (R124). -/
theorem unqueued_of_motion (once : (s.drive.motions.map Motion.station ++ s.drive.queue.map QueuedMove.station).Nodup)
    (h : motionOf s i = some m) : queued s i = false := by
  have moving : i ∈ s.drive.motions.map Motion.station :=
    List.mem_map.2 ⟨m, List.mem_of_find?_eq_some h, motionOf_station h⟩
  exact not_queued_iff.2 fun listed => (List.nodup_append.1 once).2.2 i moving i listed rfl

theorem dropMotion_atRest (calm : queued s i = false) : AtRest i (dropMotion i s) := by
  refine ⟨motionOf_none_iff.2 fun listed => ?_, calm⟩
  obtain ⟨x, hx, station⟩ := List.mem_map.1 listed
  exact of_decide_eq_true (List.mem_filter.1 hx).2 station

/-- A motion is removed, and its ending stands in the event queue. -/
def ended (kind : EventKind) (i : StationIx) (s : State) : State :=
  raise kind (stationNumber i) none (s.work i).position (dropMotion i s)

theorem ended_atRest (calm : queued s i = false) : AtRest i (ended kind i s) :=
  (dropMotion_atRest calm).of_drive rfl

theorem ended_queue (room : s.events.queue.length < 24) : (ended kind i s).events.queue =
    s.events.queue ++ [⟨kind, i.val + 1, none, bankClock s, (s.work i).position⟩] := raise_queue _ _ _ _ room

theorem faultReport_atRest (hc : c = .valveStall ∨ c = .valveTimeout) (h : AtRest i s) : AtRest i (faultReport plain i c s) := by
  have halted : AtRest i (grantTest plain (haltFault plain i c s)) :=
    (haltFault_atRest i c s).untouched (grantTest_untouched (haltFault_atRest i c s).2)
  rw [faultReport_plain]
  rcases hc with rfl | rfl
  · split
    · exact halted
    · exact h
  · split
    · exact halted
    · exact h

/-- A motion ends in a fault of its valve (R137, R138). -/
def failed (kind : EventKind) (c : FaultCause) (i : StationIx) (s : State) : State :=
  grantTest plain (faultReport plain i c (ended kind i s))

theorem timeoutMotion_eq (i : StationIx) (s : State) : timeoutMotion plain i s = failed .timeout .valveTimeout i s := rfl

theorem failed_atRest (hc : c = .valveStall ∨ c = .valveTimeout) (calm : queued s i = false) :
    AtRest i (failed kind c i s) := by
  have rest := faultReport_atRest hc (ended_atRest (kind := kind) calm)
  exact rest.untouched (grantTest_untouched rest.2)

/-- A STANDBY or sampled station takes the fault (R25, R26). -/
theorem failed_own (hc : c = .valveStall ∨ c = .valveTimeout)
    (state : (s.work i).state = .standby ∨ (s.work i).state.active = true) :
    Faulted c (s.work i) ((failed kind c i s).work i) := by
  have taken : faultTaken c ((ended kind i s).work i).state (motionStatus (ended kind i s) i) = true := by
    have same : (ended kind i s).work i = s.work i := rfl
    rw [same]
    rcases hc with rfl | rfl <;> rcases state with e | e <;> simp [faultTaken, e]
  exact (faultReport_own taken).driven (grantTest_driven _)

theorem failed_grows {l : List EventRecord} (h : l <+: (ended kind i s).events.queue) :
    l <+: (failed kind c i s).events.queue :=
  (grown_steady l).grantTest ((grown_steady l).faultReport _ h)

theorem completed_atRest (target : Nat) (rest : AtRest i s) : AtRest i (reportCompleted plain i target s) :=
  rest.of_drive (reportCompleted_drive i target s)

theorem missMotion_own (calm : queued s m.station = false) : AtRest m.station (missMotion plain m s) ∧
    (missMotion plain m s).work m.station =
      (reportCompleted plain m.station m.target (ended .miss m.station s)).work m.station := by
  have rest := completed_atRest m.target (ended_atRest (kind := .miss) calm)
  have granted := grantTest_untouched rest.2
  exact ⟨rest.untouched granted, granted.work⟩

theorem missMotion_grows {l : List EventRecord} (h : l <+: (ended .miss m.station s).events.queue) :
    l <+: (missMotion plain m s).events.queue :=
  (grown_steady l).grantTest ((grown_steady l).reportCompleted _ h)

end Endings

/-! ### The start gap (R127 to R130) -/

section StartGap

variable {s : State} {e : QueuedMove} {rest : List QueuedMove} {p : Nat}

/-- No grant while the start gap runs (R127). -/
theorem grantLoop_gap (n : Nat) (h : startGapPassed s = false) : grantLoop plain n s = s := by
  cases n with
  | zero => rfl
  | succ n =>
    rw [grantLoop_plain]
    split
    · rfl
    · exact if_neg (by simp [grantOpen, h])

/-- A head whose position is away from its target begins in RUNNING, and the start gap runs again (R127, R130). -/
theorem grantTest_runs (hq : s.drive.queue = e :: rest) (opens : grantOpen s = true) (gap : s.settings.bank.startGap ≠ 0)
    (hp : (s.work e.station).position = some p) (hb : within p e.target s.settings.bank.inchBand = false)
    (hd : within p e.target 5 = false) :
    grantTest plain s = { s with drive :=
      { queue := rest
        motions := s.drive.motions ++
          [⟨e.station, e.target, s.elapsed, p, .running (toward p e.target) (some p) s.elapsed⟩]
        lastMotorStart := some s.elapsed } } := by
  have began : beginMotion plain e { s with drive := { s.drive with queue := rest } } =
      startMotor ⟨e.station, e.target, s.elapsed, p, .running (toward p e.target) (some p) s.elapsed⟩
        { s with drive := { s.drive with queue := rest } } := by
    have position : (State.work { s with drive := { s.drive with queue := rest } } e.station).position = some p := hp
    rw [beginMotion_plain]
    simp only [position, Config.deadband, hd, hb]
    rfl
  have waits : startGapPassed (startMotor ⟨e.station, e.target, s.elapsed, p, .running (toward p e.target) (some p) s.elapsed⟩
      { s with drive := { s.drive with queue := rest } }) = false := by
    refine decide_eq_false ?_
    change ¬ s.elapsed + s.settings.bank.startGap * 500 ≤ s.elapsed
    omega
  rw [grantTest, hq, List.length_cons, grantLoop_plain]
  simp only [hq, opens, if_true]
  rw [began, grantLoop_gap _ waits]
  rfl

end StartGap

/-! ### The expiries (R127, R132, R134, R138) -/

section Expiries

variable {s t : State} {i : StationIx} {m : Motion} {p : Nat}

theorem within_weaken {a b d d' : Nat} (h : within a b d' = false) (le : d ≤ d') : within a b d = false := by
  simp only [within, Bool.and_eq_false_iff, decide_eq_false_iff_not] at h ⊢
  omega

/-- START_GAP_END (R127). -/
theorem exec_startGapEnd {a : Nat} (h : Undisturbed s) (ha : s.drive.lastMotorStart = some a) :
    exec .startGapEnd s = .next (grantTest plain (passUntil (a + s.settings.bank.startGap * 500) s)) := by
  have good : (passUntil (a + s.settings.bank.startGap * 500) s).memory.Clean := h.2
  refine (perform_powered endStartGap h.1).trans (congrArg Host.Outcome.next ?_)
  unfold endStartGap
  rw [ha]
  exact carryOut_clean _ _ good

theorem startGapEnd_opens {a : Nat} (ha : s.drive.lastMotorStart = some a) (mode : s.bank.mode ≠ .idle)
    (slots : s.drive.motions.length < s.settings.bank.slotCount) :
    grantOpen (passUntil (a + s.settings.bank.startGap * 500) s) = true := by
  have passed : startGapPassed (passUntil (a + s.settings.bank.startGap * 500) s) = true := by
    unfold startGapPassed
    rw [show (passUntil (a + s.settings.bank.startGap * 500) s).drive.lastMotorStart = some a from ha]
    exact decide_eq_true (Nat.le_max_right ..)
  unfold grantOpen
  rw [passed]
  exact Bool.and_eq_true_iff.2 ⟨Bool.and_eq_true_iff.2 ⟨decide_eq_true mode, decide_eq_true slots⟩, rfl⟩

/-- INCH_PERIOD (R132). -/
theorem exec_inchPeriod {n a b : Nat} {pulse : Option (Direction × Nat)} (h : Undisturbed s) (hm : motionOf s i = some m)
    (phase : m.phase = .inching n a b pulse) :
    exec (.inchPeriod i) s = .next (nextInchPeriod plain m n (passUntil b s)) := by
  have good : (passUntil b s).memory.Clean := h.2
  have motion : motionOf (passUntil b s) i = some m := hm
  have past : b ≤ (passUntil b s).elapsed := Nat.le_max_right ..
  refine (perform_powered (reachInchPeriod i) h.1).trans (congrArg Host.Outcome.next ?_)
  unfold reachInchPeriod
  simp only [hm, phase]
  rw [carryOut_clean _ _ good, inchPeriodReached]
  simp only [motion, phase, if_pos past]

/-- INCH_PULSE_END (R132). -/
theorem exec_inchPulseEnd {n a b off : Nat} {d : Direction} (h : Undisturbed s) (hm : motionOf s i = some m)
    (phase : m.phase = .inching n a b (some (d, off))) :
    exec (.inchPulseEnd i) s = .next (setMotion { m with phase := .inching n a b none } (passUntil off s)) := by
  refine (perform_powered (endInchPulse i) h.1).trans (congrArg Host.Outcome.next ?_)
  unfold endInchPulse
  simp only [hm, phase]

/-- REVERSAL_PAUSE_END (R134). -/
theorem exec_reversalPauseEnd {e : Nat} (h : Undisturbed s) (hm : motionOf s i = some m) (phase : m.phase = .reversing e) :
    exec (.reversalPauseEnd i) s = .next (endReversal plain m (passUntil e s)) := by
  have good : (passUntil e s).memory.Clean := h.2
  have motion : motionOf (passUntil e s) i = some m := hm
  have past : e ≤ (passUntil e s).elapsed := Nat.le_max_right ..
  refine (perform_powered (reachPauseEnd i) h.1).trans (congrArg Host.Outcome.next ?_)
  unfold reachPauseEnd
  simp only [hm, phase]
  rw [carryOut_clean _ _ good, pauseReached]
  simp only [motion, phase, if_pos past]

/-- TIMEOUT (R138). -/
theorem exec_timeout (h : Undisturbed s) (hm : motionOf s i = some m) :
    exec (.timeout i) s = .next (timeoutMotion plain i (passUntil (timeoutAt s m) s)) := by
  have good : (passUntil (timeoutAt s m) s).memory.Clean := h.2
  have motion : motionOf (passUntil (timeoutAt s m) s) i = some m := hm
  have past : timeoutAt (passUntil (timeoutAt s m) s) m ≤ (passUntil (timeoutAt s m) s).elapsed := Nat.le_max_right ..
  refine (perform_powered (reachTimeout i) h.1).trans (congrArg Host.Outcome.next ?_)
  unfold reachTimeout
  simp only [hm]
  rw [carryOut_clean _ _ good, timeoutReached]
  simp only [motion, if_pos past]

/-- The next period begins with a pulse toward the target where the position is away from it (R132). -/
theorem nextInchPeriod_present {n : Nat} (few : n < 20) (hp : (s.work m.station).position = some p)
    (away : within p m.target 5 = false) :
    nextInchPeriod plain m n s = setMotion { m with phase := inchPeriodFrom s (some p) m.target n } s := by
  have elsewhere : atOpening s m.station m.target = false := by
    unfold atOpening
    rw [hp]
    exact away
  rw [nextInchPeriod_plain, if_neg (by rw [Config.inchPulses]; omega), elsewhere, hp]
  rfl

/-- It begins with none where the position is absent (R132). -/
theorem nextInchPeriod_absent {n : Nat} (few : n < 20) (hp : (s.work m.station).position = none) :
    nextInchPeriod plain m n s = setMotion { m with phase := inchPeriodFrom s none m.target n } s := by
  have elsewhere : atOpening s m.station m.target = false := by
    unfold atOpening
    rw [hp]
  rw [nextInchPeriod_plain, if_neg (by rw [Config.inchPulses]; omega), elsewhere, hp]
  rfl

theorem nextInchPeriod_miss {n : Nat} (many : 20 ≤ n) : nextInchPeriod plain m n s = missMotion plain m s := by
  rw [nextInchPeriod_plain]
  exact if_pos many

theorem endReversal_runs (hp : (s.work m.station).position = some p) (away : within p m.target 5 = false)
    (outside : within p m.target s.settings.bank.inchBand = false) : endReversal plain m s =
      setMotion { m with phase := .running (toward p m.target) (some p) s.elapsed } s := by
  rw [endReversal_plain]
  simp only [hp, Config.deadband, away, outside]
  rfl

end Expiries

end Sys2Proof.Proofs
end

section
/-! What a motion in progress makes of the position a conversion brings it (R131 to R137). -/

namespace Sys2Proof.Proofs

open Sys2Proof Sys2Proof.Machine Sys2Proof.Laws

/-! ### A motion sees a position -/

section Seeing

variable {s t u : State} {i : StationIx} {m x : Motion} {p : Nat} {position : Option Nat}

theorem motionOf_setMotion (hm : motionOf s i = some m) (hx : x.station = i) : motionOf (setMotion x s) i = some x := by
  change (s.drive.motions.map fun y => if y.station = x.station then x else y).find? (fun y => y.station = i) = some x
  change s.drive.motions.find? (fun y => y.station = i) = some m at hm
  rw [hx]
  generalize s.drive.motions = l at hm
  induction l with
  | nil => exact nomatch hm
  | cons y rest ih =>
    by_cases hy : y.station = i
    · simp [hy, hx]
    · rw [List.find?_cons_of_neg (by simpa using hy)] at hm
      rw [List.map_cons, if_neg hy, List.find?_cons_of_neg (by simpa using hy)]
      exact ih hm

/-- The motion with the position it has seen. -/
def sawMotion (position : Option Nat) (m : Motion) : Motion := { m with lastSeen := position.getD m.lastSeen }

/-- A motion at its target completes, but in a reversal pause (R135). -/
theorem seePosition_completes (hp : (s.work m.station).position = some p) (at_ : within p m.target 5 = true) :
    (∃ e, m.phase = .reversing e) ∨
      seePosition plain m s = grantTest plain (completeMotion plain m.station m.target s) := by
  rw [seePosition_plain]
  simp only [hp, Config.deadband]
  cases m.phase with
  | running d ref stallAt => exact .inr (if_pos at_)
  | inching n a e pulse => exact .inr (if_pos at_)
  | reversing e => exact .inl ⟨e, rfl⟩

/-- One in RUNNING within the inch band or past its target begins to inch (R131, R132). -/
theorem seePosition_inches {d : Direction} {ref : Option Nat} {at_ : Nat} (hp : (s.work m.station).position = some p)
    (phase : m.phase = .running d ref at_) (away : within p m.target 5 = false)
    (near : within p m.target s.settings.bank.inchBand = true ∨ passed d p m.target = true) :
    seePosition plain m s = setMotion { sawMotion (some p) m with phase := inchPeriodFrom s (some p) m.target 0 } s := by
  rw [seePosition_plain]
  simp only [hp, phase, Config.deadband, away]
  exact if_pos (Bool.or_eq_true_iff.2 near)

/-- One in RUNNING otherwise is tested for a stall (R137). -/
theorem seePosition_runs {d : Direction} {ref : Option Nat} {at_ : Nat} (phase : m.phase = .running d ref at_)
    (away : ∀ p, (s.work m.station).position = some p →
      within p m.target 5 = false ∧ within p m.target s.settings.bank.inchBand = false ∧ passed d p m.target = false) :
    seePosition plain m s = stallTest plain (sawMotion (s.work m.station).position m) d ref at_ s := by
  rw [seePosition_plain]
  cases hp : (s.work m.station).position with
  | none =>
    simp only [phase]
    rfl
  | some p =>
    obtain ⟨far, outside, before⟩ := away p hp
    simp only [phase, Config.deadband, far, outside, before]
    rfl

theorem motionOf_goesOn {phase : MotionPhase} (hm : motionOf s m.station = some m) (same : m.phase = phase) :
    motionOf (setMotion { m with lastSeen := p, phase := phase } s) m.station = some (sawMotion (some p) m) := by
  subst same
  exact motionOf_setMotion hm rfl

/-- One in REVERSING goes on (R134). -/
theorem seePosition_pauses {e : Nat} (hm : motionOf s m.station = some m) (phase : m.phase = .reversing e) :
    motionOf (seePosition plain m s) m.station = some (sawMotion (s.work m.station).position m) := by
  rw [seePosition_plain]
  cases hp : (s.work m.station).position with
  | none =>
    simp only [phase]
    exact hm
  | some p =>
    simp only [phase]
    exact motionOf_goesOn hm phase

/-- One in INCHING away from its target goes on (R132). -/
theorem seePosition_goesInching {n a e : Nat} {pulse : Option (Direction × Nat)} (hm : motionOf s m.station = some m)
    (phase : m.phase = .inching n a e pulse) (away : ∀ p, (s.work m.station).position = some p → within p m.target 5 = false) :
    motionOf (seePosition plain m s) m.station = some (sawMotion (s.work m.station).position m) := by
  rw [seePosition_plain]
  cases hp : (s.work m.station).position with
  | none =>
    simp only [phase]
    exact hm
  | some p =>
    simp only [phase, Config.deadband, away p hp]
    exact motionOf_goesOn hm phase

/-- The stall test (R137). -/
theorem stallTest_eq (m : Motion) (d : Direction) (ref : Option Nat) (at_ : Nat) (s : State) : stallTest plain m d ref at_ s =
    if (stallReference ref at_ s.elapsed (s.work m.station).position).2 + s.settings.bank.stallTime * 1000 ≤ s.elapsed then
      failed .stall .valveStall m.station s
    else setMotion { m with
      phase := .running d (stallReference ref at_ s.elapsed (s.work m.station).position).1
        (stallReference ref at_ s.elapsed (s.work m.station).position).2 } s := rfl

/-- No sight of a position gives a station in motion an entry. -/
theorem seePosition_calm (calm : queued s m.station = false) : queued (seePosition plain m s) m.station = false := by
  have completed : queued (grantTest plain (completeMotion plain m.station m.target s)) m.station = false := by
    have rest : AtRest m.station (completeMotion plain m.station m.target s) :=
      completed_atRest m.target (dropMotion_atRest calm)
    exact (rest.untouched (grantTest_untouched rest.2)).2
  have tested (m' : Motion) (hm' : m'.station = m.station) (d : Direction) (ref : Option Nat) (at_ : Nat) :
      queued (stallTest plain m' d ref at_ s) m.station = false := by
    rw [stallTest_eq, hm']
    split
    · exact (failed_atRest (.inl rfl) calm).2
    · exact calm
  rw [seePosition_plain]
  cases (s.work m.station).position with
  | none =>
    cases m.phase with
    | running d ref at_ => exact tested m rfl d ref at_
    | inching n a e pulse => exact calm
    | reversing e => exact calm
  | some p =>
    dsimp only
    split
    case h_1 d ref at_ _ =>
      split
      · exact completed
      · split
        · exact calm
        · exact tested { m with lastSeen := p } rfl d ref at_
    case h_2 =>
      split
      · exact completed
      · exact calm
    case h_3 => exact calm

/-- The completion of a motion, seen at its own station (R135, R30). -/
theorem completed_own (target : Nat) (calm : queued s i = false) :
    AtRest i (grantTest plain (completeMotion plain i target s)) ∧
      (grantTest plain (completeMotion plain i target s)).work i = (reportCompleted plain i target (dropMotion i s)).work i := by
  have rest : AtRest i (completeMotion plain i target s) := completed_atRest target (dropMotion_atRest calm)
  have granted := grantTest_untouched rest.2
  exact ⟨rest.untouched granted, granted.work⟩

end Seeing

end Sys2Proof.Proofs
end

section
/-! The timers of the valve drive and the motions at a conversion (R127 to R138). -/

namespace Sys2Proof.Proofs

open Sys2Proof Sys2Proof.Machine Sys2Proof.Laws

/-! ### The motion of a station at a conversion -/

section Course

variable {s t u v : State} {i : StationIx} {m : Motion} {codes : Vector Code 35}

/-- The part a motion finds that sees the position of a conversion. -/
structure Sees (codes : Vector Code 35) (i : StationIx) (m : Motion) (s u : State) : Prop where
  motion : motionOf u i = some m
  calm : queued u i = false
  work : u.work i = { s.work i with position := inputValue 1000 (convertCode (bankClock s) codes[i.val + 16]) }
  elapsed : u.elapsed = s.elapsed
  settings : u.settings = s.settings

/-- What the rest of a conversion leaves of a station behind its motion's turn. -/
structure Follows (i : StationIx) (v t : State) : Prop where
  motion : motionOf t i = motionOf v i
  calm : queued t i = queued v i
  work : ∃ f, t.work i = { v.work i with flow := f }
  grows : v.events.queue <+: t.events.queue

theorem Follows.of_untouched (h : Untouched i v t) (grows : v.events.queue <+: t.events.queue) : Follows i v t :=
  ⟨h.motion, h.queued, ⟨_, h.work⟩, grows⟩

theorem Follows.trans (h : Follows i v t) (k : Follows i t u) : Follows i v u where
  motion := k.motion.trans h.motion
  calm := k.calm.trans h.calm
  work := by
    obtain ⟨f, hf⟩ := h.work
    obtain ⟨g, hg⟩ := k.work
    exact ⟨g, by rw [hg, hf]⟩
  grows := h.grows.trans k.grows

theorem Follows.of_flow (h : FlowOnly i v t) : Follows i v t where
  motion := by rw [motionOf, motionOf, h.drive]
  calm := by rw [queued, queued, h.drive]
  work := h.work
  grows := by rw [h.events]

/-- The reports of positions leave a station in motion as it is (R25, R34). -/
theorem reported_moving (hm : motionOf s i = some m) (calm : queued s i = false) :
    Untouched i (positioned codes s) (reportPositions plain (positioned codes s)) := by
  obtain ⟨motion, queue, -⟩ := positioned_status codes s i
  obtain ⟨u, before, after⟩ := reportPositions_visits i (positioned codes s)
  have first := before.untouched (.inl (queue.trans calm))
  have same : reportPosition i u = u := reportPosition_moving (first.motion.trans (motion.trans hm))
  rw [same] at after
  exact first.trans (after.untouched (.inl (first.queued.trans (queue.trans calm))))

theorem reportPosition_table (i : StationIx) (s : State) : TableChange s (reportPosition i s) := by
  unfold reportPosition
  split
  · exact faultReport_table ..
  · exact .refl s

theorem reportPositions_kept (s : State) : TableChange s (reportPositions plain s) :=
  forStations_keeps (P := TableChange s) (fun i t h => h.trans (reportPosition_table i t)) (.refl s)

/-- The stations of the motions stay different through the reports of positions (R121). -/
theorem reported_once (sound : DriveSound s) :
    ((reportPositions plain (positioned codes s)).drive.motions.map Motion.station).Nodup := by
  obtain ⟨listed, four, slots, -⟩ := sound
  have drive : (positioned codes s).drive = s.drive := by rw [positioned_only]
  have settings : (positioned codes s).settings = s.settings := by rw [positioned_only]
  have kept := driveListed_steady.reportPositions (s := positioned codes s) (by rw [drive, settings]; exact ⟨⟨listed, four⟩, slots⟩)
  exact (List.nodup_append.1 kept.1.1).1

/-- A station in motion sees the position of a conversion once, and its motion stands behind it (R131). -/
theorem driven_sees (sound : DriveSound s) (hm : motionOf s i = some m) :
    ∃ u, Sees codes i m s u ∧ Follows i (seePosition plain m u) (driven codes s) := by
  have calm := unqueued_of_motion sound.1 hm
  obtain ⟨motion, queue, -⟩ := positioned_status codes s i
  have reported := reported_moving (codes := codes) hm calm
  obtain ⟨u, before, after⟩ := movePositions_visits (reported_once (codes := codes) sound)
    (reported.motion.trans (motion.trans hm))
  have untouched := reported.trans (before.bystander.untouched (.inl (reported.queued.trans (queue.trans calm))))
  have table := (reportPositions_kept (positioned codes s)).trans before.table
  have part := (positioned_part codes s).trans (.ofTable table)
  obtain ⟨-, -, -, settings, -⟩ := part.kept
  have work := untouched.work.trans (positioned_work codes s i)
  have motion := untouched.motion.trans (motion.trans hm)
  have sees : Sees codes i m s u := ⟨motion, untouched.queued.trans (queue.trans calm), work, part.elapsed, settings⟩
  have seen : seeMotion i plain u = seePosition plain m u := by rw [seeMotion, sees.motion]
  rw [seen] at after
  have calm' : queued (seePosition plain m u) i = false := by
    have same := motionOf_station hm
    subst same
    exact seePosition_calm sees.calm
  refine ⟨u, sees, ?_⟩
  rw [driven]
  exact .of_untouched (after.bystander.untouched (.inl calm')) after.grows

theorem concluded_quiet (never : NeverTripsAtOnce s) :
    concluded codes s = { converted codes s with trip := (concluded codes s).trip } := by
  have kept := converted_apart codes s
  have part := (positioned_part codes s).trans kept.part
  have bank := kept.bank.trans (positioned_status codes s 0).2.2
  have later : NeverTripsAtOnce (converted codes s) := by
    unfold NeverTripsAtOnce
    rw [bank, part.kept.2.2.2.1]
    exact never
  exact evaluateTrip_quiet noWords (NeverTripsAtOnce.noTripDue later)

/-- A sound loop leaves a station in motion to its drive (R33). -/
theorem concluded_sees (sound : DriveSound s) (hm : motionOf s i = some m) (good : 736 < codes[i.val].toNat)
    (never : NeverTripsAtOnce s) :
    ∃ u, Sees codes i m s u ∧ Follows i (seePosition plain m u) (concluded codes s) := by
  obtain ⟨u, sees, moved⟩ := driven_sees (codes := codes) sound hm
  refine ⟨u, sees, moved.trans ?_⟩
  have calm : queued (driven codes s) i = false := by
    have same := motionOf_station hm
    subst same
    exact moved.calm.trans (seePosition_calm sees.calm)
  obtain ⟨x, before, after⟩ := converted_visits i codes s
  have first := before.bystander.untouched (.inl calm)
  have step : FlowOnly i x (flowStep i plain x) := flowStep_quiet (.inr fun fault => by
    rw [(flowFound before).input] at fault
    exact Nat.not_le.2 good (statusOfCode_fault.1 fault))
  have turn := Follows.of_flow step
  have last := after.bystander.untouched (.inl (turn.calm.trans (first.queued.trans calm)))
  have grows : (driven codes s).events.queue <+: (converted codes s).events.queue := by
    rw [converted]
    exact stepFlows_grows (List.prefix_refl _)
  obtain ⟨f, work⟩ := step.work
  have motion := last.motion.trans (turn.motion.trans first.motion)
  have queue := last.queued.trans (turn.calm.trans first.queued)
  have flown : Follows i (driven codes s) (converted codes s) :=
    ⟨motion, queue, ⟨f, by rw [last.work, work, first.work]⟩, grows⟩
  have quiet := concluded_quiet (codes := codes) never
  generalize concluded codes s = t at quiet ⊢
  generalize converted codes s = w at quiet flown
  rw [quiet]
  exact ⟨flown.motion, flown.calm, flown.work, flown.grows⟩

/-- The position a conversion brings a station. -/
def broughtPosition (codes : Vector Code 35) (i : StationIx) : Option Nat := inputValue 1000 (convertCode 0 codes[i.val + 16])

theorem Sees.position (h : Sees codes i m s u) : (u.work i).position = broughtPosition codes i := by
  rw [h.work]
  rfl

theorem Sees.clock (h : Sees codes i m s u) : bankClock u = bankClock s := by rw [bankClock, bankClock, h.elapsed]

theorem Sees.target (h : Sees codes i m s u) : (u.work i).target = (s.work i).target := by rw [h.work]

theorem expiryAfter_clock (h : bankClock t = bankClock s) (n : Nat) : expiryAfter t n = expiryAfter s n := by
  rw [expiryAfter, expiryAfter, h]

section Outcomes

variable (sees : Sees codes m.station m s u) (follows : Follows m.station (seePosition plain m u) t)

include sees follows

/-- A motion at its target completes (R135). -/
theorem course_completes {p : Nat} (hp : broughtPosition codes m.station = some p) (at_ : within p m.target 5 = true) :
    (∃ e, m.phase = .reversing e) ∨ motionOf t m.station = none ∧ queued t m.station = false ∧
      (m.target = (s.work m.station).target → (t.work m.station).lastMoveDone = some (bankClock s) ∧
        (t.work m.station).settleExpiry =
          if s.settings.bank.settleTime = 0 then none else expiryAfter s s.settings.bank.settleTime) ∧
      (m.target ≠ (s.work m.station).target →
        (t.work m.station).lastMoveDone = (s.work m.station).lastMoveDone) := by
  refine (seePosition_completes (sees.position.trans hp) at_).imp_right fun seen => ?_
  obtain ⟨⟨motion, calm⟩, own⟩ := completed_own m.target sees.calm
  have drop : (dropMotion m.station u).work m.station = u.work m.station := rfl
  obtain ⟨f, work⟩ := follows.work
  rw [seen, own] at work
  refine ⟨?_, ?_, fun same => ?_, fun other => ?_⟩
  · rw [follows.motion, seen, motion]
  · rw [follows.calm, seen, calm]
  · have target : m.target = ((dropMotion m.station u).work m.station).target := by rw [drop, sees.target, same]
    rw [target, reportCompleted_own] at work
    have clock : bankClock (dropMotion m.station u) = bankClock s := sees.clock
    have settings : (dropMotion m.station u).settings = s.settings := sees.settings
    rw [work, settings, expiryAfter_clock clock, clock]
    exact ⟨rfl, rfl⟩
  · have target : m.target ≠ ((dropMotion m.station u).work m.station).target := by rw [drop, sees.target]; exact other
    rw [reportCompleted_plain, if_neg target, drop, sees.work] at work
    rw [work]

/-- A motion in RUNNING within the inch band, or past its target, begins to inch (R131, R132). -/
theorem course_inches {p : Nat} {d : Direction} {ref : Option Nat} {since : Nat} (hp : broughtPosition codes m.station = some p)
    (phase : m.phase = .running d ref since) (away : within p m.target 5 = false)
    (near : within p m.target s.settings.bank.inchBand = true ∨ passed d p m.target = true) :
    motionOf t m.station = some { sawMotion (some p) m with 
      phase := .inching 1 s.elapsed (s.elapsed + s.settings.bank.inchPeriod * 100)
        (some (toward p m.target, s.elapsed + s.settings.bank.inchOn * 100)) } := by
  have seen := seePosition_inches (sees.position.trans hp) phase away (by rw [sees.settings]; exact near)
  have begun : motionOf (setMotion { sawMotion (some p) m with phase := inchPeriodFrom u (some p) m.target 0 } u) m.station =
      some { sawMotion (some p) m with phase := inchPeriodFrom u (some p) m.target 0 } := motionOf_setMotion sees.motion rfl
  rw [follows.motion, seen, begun, inchPeriodFrom, sees.elapsed, sees.settings]
  rfl

/-- A motion in RUNNING otherwise goes on with its stall reference, or stalls (R137). -/
theorem course_runs {d : Direction} {ref : Option Nat} {since : Nat} (phase : m.phase = .running d ref since)
    (away : ∀ p, broughtPosition codes m.station = some p →
      within p m.target 5 = false ∧ within p m.target s.settings.bank.inchBand = false ∧ passed d p m.target = false) :
    let r := stallReference ref since s.elapsed (broughtPosition codes m.station)
    (s.elapsed < r.2 + s.settings.bank.stallTime * 1000 →
      motionOf t m.station = some { sawMotion (broughtPosition codes m.station) m with phase := .running d r.1 r.2 }) ∧
    (r.2 + s.settings.bank.stallTime * 1000 ≤ s.elapsed → motionOf t m.station = none ∧
      (t.events.queue.length < 24 →
        ⟨.stall, m.station.val + 1, none, bankClock s, broughtPosition codes m.station⟩ ∈ t.events.queue) ∧
      ((s.work m.station).state = .standby ∨ (s.work m.station).state.active = true →
        (t.work m.station).state = .faulted .valveStall ∧ (t.work m.station).target = 0)) := by
  intro r
  have seen := seePosition_runs phase (by rw [sees.position, sees.settings]; exact away)
  have saw : (sawMotion (u.work m.station).position m).station = m.station := rfl
  rw [stallTest_eq, saw, sees.position, sees.elapsed, sees.settings] at seen
  refine ⟨fun early => ?_, fun late => ?_⟩
  · rw [if_neg (Nat.not_le.2 early)] at seen
    rw [follows.motion, seen]
    exact motionOf_setMotion sees.motion rfl
  · rw [if_pos late] at seen
    have grows := follows.grows
    obtain ⟨f, work⟩ := follows.work
    rw [seen] at grows work
    refine ⟨?_, fun room => ?_, fun state => ?_⟩
    · rw [follows.motion, seen]
      exact (failed_atRest (.inl rfl) sees.calm).1
    · have before : u.events.queue.length < 24 := by
        have first : u.events.queue <+: (failed .stall .valveStall m.station u).events.queue :=
          failed_grows (raise_queue_grows _ _ _ _ (dropMotion m.station u))
        exact Nat.lt_of_le_of_lt (first.trans grows).length_le room
      have told : u.events.queue ++ [⟨.stall, m.station.val + 1, none, bankClock u, (u.work m.station).position⟩] <+:
          (failed .stall .valveStall m.station u).events.queue := failed_grows (by rw [ended_queue before])
      rw [sees.clock, sees.position] at told
      exact (told.trans grows).subset (List.mem_append_right _ (List.mem_singleton.2 rfl))
    · have fault := failed_own (kind := .stall) (c := .valveStall) (i := m.station) (s := u) (.inl rfl)
        (by rw [sees.work]; exact state)
      rw [work]
      exact ⟨fault.state, fault.target⟩

end Outcomes

end Course

end Sys2Proof.Proofs
end

section
/-! The timers of the valve drive, and its motions at a conversion (chapter 6). -/

namespace Sys2Proof.Proofs

open Sys2Proof Sys2Proof.Machine Sys2Proof.Laws

section DriveTimers

variable {s t : State} {i : StationIx} {m : Motion}

/-- The end of a start gap grants the head into RUNNING (R127, R130). -/
theorem startGapEnd_runs {a p : Nat} {e : QueuedMove} {rest : List QueuedMove} (h : Undisturbed s)
    (ha : s.drive.lastMotorStart = some a) (hq : s.drive.queue = e :: rest) (mode : s.bank.mode ≠ .idle)
    (slots : s.drive.motions.length < s.settings.bank.slotCount) (gap : s.settings.bank.startGap ≠ 0)
    (hp : (s.work e.station).position = some p) (outside : within p e.target s.settings.bank.inchBand = false)
    (band : 5 ≤ s.settings.bank.inchBand) :
    exec .startGapEnd s = .next { s with
      elapsed := max s.elapsed (a + s.settings.bank.startGap * 500)
      drive :=
        { queue := rest
          motions := s.drive.motions ++ [⟨e.station, e.target, max s.elapsed (a + s.settings.bank.startGap * 500), p,
            .running (toward p e.target) (some p) (max s.elapsed (a + s.settings.bank.startGap * 500))⟩]
          lastMotorStart := some (max s.elapsed (a + s.settings.bank.startGap * 500)) } } := by
  have granted := grantTest_runs (s := passUntil (a + s.settings.bank.startGap * 500) s) hq (startGapEnd_opens ha mode slots)
    gap hp outside (within_weaken outside band)
  exact (exec_startGapEnd h ha).trans (congrArg Host.Outcome.next granted)

/-- The ending of a motion behind 20 pulses (R136). -/
theorem inchPeriod_miss (calm : queued s m.station = false) :
    motionOf (missMotion plain m s) m.station = none ∧ Silent s (missMotion plain m s) ∧
      (missMotion plain m s).elapsed = s.elapsed ∧
      (s.events.queue.length < 24 → ∃ l, (missMotion plain m s).events.queue = s.events.queue ++
        ⟨.miss, m.station.val + 1, none, bankClock s, (s.work m.station).position⟩ :: l) ∧
      (m.target = (s.work m.station).target →
        ((missMotion plain m s).work m.station).lastMoveDone = some (bankClock s)) := by
  have table := missMotion_table (s := s) m
  obtain ⟨⟨motion, -⟩, own⟩ := missMotion_own calm
  refine ⟨motion, (PartChange.ofTable table).silent, table.elapsed, fun room => ?_, fun same => ?_⟩
  · exact first_of_grown (missMotion_grows (by rw [ended_queue room]))
  · have target : m.target = ((ended .miss m.station s).work m.station).target := same
    rw [own, target, reportCompleted_own]
    rfl

/-- The ending of a motion by a timeout (R138). -/
theorem timeout_ends (calm : queued s i = false) :
    motionOf (timeoutMotion plain i s) i = none ∧ Silent s (timeoutMotion plain i s) ∧
      (timeoutMotion plain i s).elapsed = s.elapsed ∧
      (s.events.queue.length < 24 → ∃ l, (timeoutMotion plain i s).events.queue = s.events.queue ++
        ⟨.timeout, i.val + 1, none, bankClock s, (s.work i).position⟩ :: l) ∧
      ((s.work i).state = .standby ∨ (s.work i).state.active = true →
        ((timeoutMotion plain i s).work i).state = .faulted .valveTimeout ∧ ((timeoutMotion plain i s).work i).target = 0) := by
  have table := timeoutMotion_table (s := s) i
  refine ⟨?_, (PartChange.ofTable table).silent, table.elapsed, fun room => ?_, fun state => ?_⟩
  · rw [timeoutMotion_eq]
    exact (failed_atRest (.inr rfl) calm).1
  · rw [timeoutMotion_eq]
    exact first_of_grown (failed_grows (by rw [ended_queue room]))
  · rw [timeoutMotion_eq]
    have fault := failed_own (kind := .timeout) (.inr rfl) state
    exact ⟨fault.state, fault.target⟩

/-- Settles O56. -/
theorem driveTimers : Obligations.DriveTimers := by
  unfold Obligations.DriveTimers
  intro s h sound
  refine ⟨fun a e rest p ha hq mode slots gap hp outside band => ?gap, fun i m pulses a b pulse hm phase => ?period,
    fun i m pulses a b d off hm phase => ?pulse, fun i m e p hm phase hp away outside => ?pause, fun i m hm => ?timeout,
    fun codes i m hm good never => ?conversion⟩
  case gap => exact startGapEnd_runs h ha hq mode slots gap hp outside band
  case period =>
    have run := exec_inchPeriod h hm phase
    have same := motionOf_station hm
    subst same
    refine ⟨fun p few hp away => ?_, fun few hp => ?_, fun many => ?_⟩
    · rw [run]
      exact congrArg Host.Outcome.next (nextInchPeriod_present (s := passUntil b s) few hp away)
    · rw [run]
      exact congrArg Host.Outcome.next (nextInchPeriod_absent (s := passUntil b s) few hp)
    · rw [nextInchPeriod_miss many] at run
      have calm : queued (passUntil b s) m.station = false := unqueued_of_motion sound.1 hm
      obtain ⟨motion, silent, elapsed, told, done⟩ := inchPeriod_miss calm
      exact ⟨_, run, motion, silent, elapsed, told, done⟩
  case pulse => exact exec_inchPulseEnd h hm phase
  case pause =>
    have same := motionOf_station hm
    subst same
    exact (exec_reversalPauseEnd h hm phase).trans
      (congrArg Host.Outcome.next (endReversal_runs (s := passUntil e s) hp away outside))
  case timeout =>
    have calm : queued (passUntil (timeoutAt s m) s) i = false := unqueued_of_motion sound.1 hm
    obtain ⟨motion, silent, elapsed, told, fault⟩ := timeout_ends calm
    exact ⟨_, exec_timeout h hm, motion, silent, elapsed, told, fault⟩
  case conversion =>
    have run : exec (.conversion codes) s = .next (concluded codes (atConversion s)) := exec_conversion codes h
    have begun := atConversion_begun s
    have sound : DriveSound (atConversion s) := sound
    have hm : motionOf (atConversion s) i = some m := hm
    have never : NeverTripsAtOnce (atConversion s) := never
    generalize atConversion s = b at run begun sound hm never
    have elapsed := (converted_part codes b).elapsed
    have clock := concluded_clock codes b
    have position := concluded_position codes b i
    rw [concluded_input codes b ⟨i.val + 16, by omega⟩] at position
    obtain ⟨u, sees, follows⟩ := concluded_sees sound hm good never
    have same := motionOf_station hm
    subst same
    rw [← begun.settings, ← begun.work m.station, ← begun.elapsed]
    refine ⟨_, run, elapsed, position, fun p hp at_ => ?_, fun p d ref since hp phase away near => ?_,
      fun d ref since phase away => ?_, fun e phase => ?_, fun n a e pulse phase away => ?_⟩
    · rw [expiryAfter_clock clock, clock]
      exact course_completes sees follows hp at_
    · exact (course_inches sees follows hp phase away near).trans (by rw [← hp]; rfl)
    · rw [clock]
      exact course_runs sees follows phase away
    · exact follows.motion.trans ((seePosition_pauses sees.motion phase).trans (by rw [sees.position]; rfl))
    · exact follows.motion.trans
        ((seePosition_goesInching sees.motion phase (by rw [sees.position]; exact away)).trans (by rw [sees.position]; rfl))

end DriveTimers

end Sys2Proof.Proofs
end

section
/-! What checked reads leave of one station's record (R27, R187, R190): a station stays assigned, a damaged one stays FAULTED at
target 0, and an UNUSED one stays UNUSED. -/

namespace Sys2Proof.Proofs

open Sys2Proof Sys2Proof.Machine Sys2Proof.Laws

section Rules

variable {s t : State} {i j : StationIx} {R : StationWork → Prop}

/-- A property of a working part that the changes of its station that reads, damage and trips bring about keep. -/
structure RecordRule (R : StationWork → Prop) : Prop where
  soft : ∀ {a b : StationWork}, b.state = a.state → b.target = a.target → b.damaged = a.damaged → R a → R b
  aims : ∀ {a : StationWork} (c : StationConfig) (r : Nat), R a →
    R { a with target := clampTarget c a.state r, fresh := false, settleExpiry := none }
  enters : ∀ {s : State} {i : StationIx} {new : StationState} {w : StationWork}, Enters s i new w → R (s.work i) →
    R { w with state := new }
  stands : ∀ {a : StationWork}, R a →
    R (if a.state.active then { a.closed with state := .standby, restartMark := true, recoveryRun := 0 } else a.closed)
  lost : ∀ {a : StationWork}, a.state.assigned = true → R a →
    R { a.afterDamage with state := .faulted .record, damaged := true }
  chilled : ∀ {a : StationWork} (l : List WorkField), a.state.assigned = false → R a → R (l.foldl StationWork.chill a)

/-- What the record of one station keeps, where no word holds more than two wrong bits. -/
def Recorded (R : StationWork → Prop) (i : StationIx) (t : State) : Prop := FewWrong t.memory.wrongBits ∧ R (t.work i)

theorem Recorded.of_work (h : Recorded R i s) (hm : t.memory = s.memory) (hw : t.work i = s.work i) : Recorded R i t := by
  unfold Recorded
  rw [hm, hw]
  exact h

/-- Where the work of one station changes, only that station is left to look at. -/
theorem Recorded.of_one (h : Recorded R i s) (few : FewWrong s.memory.wrongBits → FewWrong t.memory.wrongBits)
    (others : ∀ k, k ≠ j → t.work k = s.work k) (own : R (s.work j) → R (t.work j)) : Recorded R i t := by
  refine ⟨few h.1, ?_⟩
  by_cases e : i = j
  · subst e
    exact own h.2
  · rw [others i e]
    exact h.2

theorem aimed_recorded (hR : RecordRule R) (j : StationIx) (r : Nat) (h : Recorded R i s) : Recorded R i (aimed j r s) := by
  refine h.of_one (j := j) (by rw [aimed_memory]; exact id) (fun k hk => aimed_work_other hk r s) fun own => ?_
  unfold aimed
  split
  · exact own
  · rw [setWork_work_same]
    exact hR.aims _ _ own

theorem enterState_recorded (hR : RecordRule R) {new : StationState} (l : List WorkField) {f : StationWork → StationWork}
    (he : Enters s j new (f (s.work j))) (h : Recorded R i s) : Recorded R i (enterState plain j new l f s) := by
  refine h.of_one (j := j) (by rw [enterState_memory]; exact id) (fun k hk => enterState_work_other _ _ _ _ _ hk) fun own => ?_
  rw [enterState_work_same]
  exact hR.enters he own

theorem standDown_recorded (hR : RecordRule R) (j : StationIx) (h : Recorded R i s) : Recorded R i (standDown j plain s) := by
  refine h.of_one (j := j) (by rw [standDown_memory]; exact id) (fun k hk => standDown_work_other hk s) fun own => ?_
  rw [standDown_work_same]
  exact hR.stands own

theorem recordLost_recorded (hR : RecordRule R) (j : StationIx) (k : Nat) (assigned : (s.work j).state.assigned = true)
    (h : Recorded R i s) : Recorded R i (recordLost j k s) := by
  obtain ⟨others, own⟩ := recordLost_fields j k s
  refine h.of_one (j := j) (recordLost_blocks j k s).memory.few (fun x hx => (others x hx).2) fun hj => ?_
  rw [own]
  exact hR.lost assigned hj

theorem damageUnused_work_other (k : Nat) (h : j ≠ i) : (damageUnused i k s).work j = s.work j := by
  unfold damageUnused
  split
  · rw [rewriteWords_work, setCfg_work]
  · exact setWork_work_other _ _ h

theorem damageUnused_work_same (k : Nat) (i : StationIx) (s : State) : (damageUnused i k s).work i =
    if k < 8 then s.work i else (fieldsInWord k).foldl StationWork.chill (s.work i) := by
  unfold damageUnused
  split
  · rw [rewriteWords_work, setCfg_work]
  · rw [rewriteWords_work, setWork_work_same]

theorem damageUnused_recorded (hR : RecordRule R) (j : StationIx) (k : Nat) (unused : (s.work j).state.assigned = false)
    (h : Recorded R i s) : Recorded R i (damageUnused j k s) := by
  refine h.of_one (j := j) (damageUnused_blocks j k s).memory.few (fun x hx => damageUnused_work_other k hx) fun own => ?_
  rw [damageUnused_work_same]
  split
  · exact own
  · exact hR.chilled _ unused own

theorem recorded_reads (hR : RecordRule R) (i : StationIx) : ReadSteady (Recorded R i) where
  raise _ _ _ _ h := h.of_work rfl rfl
  soft j w hw h := h.of_one (j := j) id (fun k hk => setWork_work_other _ _ hk) fun own => by
    rw [setWork_work_same]
    exact hR.soft hw.state hw.target hw.damaged own
  aim j r h := aimed_recorded hR j r h
  enter j n l f he _ _ h := enterState_recorded hR l he h
  enterAim j n l f r he h := aimed_recorded hR j r (enterState_recorded hR l he h)
  standDown j h := standDown_recorded hR j h
  sampler _ _ h := h
  drive _ _ h := h
  measure _ h := h
  balancer _ h := h
  link _ h := h
  roundTimer _ h := h
  trip _ _ h := h
  settings _ _ h := h
  followed _ _ h := h
  reading _ step h := ⟨step.few h.1, h.2⟩
  recordLost j k ha h := recordLost_recorded hR j k ha h
  damageUnused j k ha h := damageUnused_recorded hR j k ha h
  misread w hw h := absurd hw (by have := count_le_of_few h.1 w; omega)

theorem tripUnit_recorded (o : TripOrigin) (h : Recorded R i s) : Recorded R i (tripUnit o s) := h.of_work rfl rfl

theorem startSampler_recorded (h : Recorded R i s) : Recorded R i (startSampler plain s) := by
  rw [show startSampler plain s = { s with sampler := (startSampler plain s).sampler } from startSampler_samplerOnly s]
  exact h

theorem recorded_trips (hR : RecordRule R) (i : StationIx) : TripSteady (Recorded R i) (Recorded R i) :=
  ⟨(recorded_reads hR i).checks, (recorded_reads hR i).checks, tripUnit_recorded, startSampler_recorded⟩

/-! ### The three properties -/

/-- An assigned station stays assigned. -/
def Assigned (w : StationWork) : Prop := w.state.assigned = true

/-- A station whose record is damaged stays FAULTED at target 0 (R27). -/
def RecordFaulted (w : StationWork) : Prop := w.state = .faulted .record ∧ w.damaged = true ∧ w.target = 0

/-- An UNUSED station stays so, and undamaged (R27). -/
def UnusedWhole (w : StationWork) : Prop := w.state = .unused ∧ w.damaged = false

theorem closed_state (w : StationWork) : w.closed.state = w.state := (closed_fields w).1

theorem assigned_rule : RecordRule Assigned where
  soft hs _ _ h := by rw [Assigned, hs]; exact h
  aims _ _ h := h
  enters he _ := he.entered
  stands {a} h := by
    split
    · rfl
    · exact (congrArg StationState.assigned (closed_state a)).trans h
  lost _ _ := rfl
  chilled _ hu h := absurd h (by rw [Assigned, hu]; exact Bool.false_ne_true)

theorem recordFaulted_rule : RecordRule RecordFaulted where
  soft hs ht hd := fun ⟨state, damaged, target⟩ => ⟨hs.trans state, hd.trans damaged, ht.trans target⟩
  aims c r := fun ⟨state, damaged, _⟩ => ⟨state, damaged, clampTarget_inactive (by rw [state]; rfl) r⟩
  enters he := fun ⟨state, damaged, _⟩ => absurd state (he.marked damaged _)
  stands {a} := fun ⟨state, damaged, _⟩ => by
    rw [if_neg (by rw [state]; exact Bool.false_ne_true)]
    exact ⟨(closed_state a).trans state, (closed_fields a).2.1.trans damaged, closed_target a⟩
  lost _ _ := ⟨rfl, rfl, rfl⟩
  chilled _ hu := fun ⟨state, _⟩ => absurd hu (by rw [state]; simp [StationState.assigned])

theorem unusedWhole_rule : RecordRule UnusedWhole where
  soft hs _ hd := fun ⟨state, damaged⟩ => ⟨hs.trans state, hd.trans damaged⟩
  aims _ _ h := h
  enters he := fun ⟨state, _⟩ => absurd he.assigned (by rw [state]; exact Bool.false_ne_true)
  stands {a} := fun ⟨state, damaged⟩ => by
    rw [if_neg (by rw [state]; exact Bool.false_ne_true)]
    exact ⟨(closed_state a).trans state, (closed_fields a).2.1.trans damaged⟩
  lost ha := fun ⟨state, _⟩ => absurd ha (by rw [state]; exact Bool.false_ne_true)
  chilled l _ := fun ⟨state, damaged⟩ => chill_unused l state damaged

end Rules

end Sys2Proof.Proofs
end

section
/-! The scrub's read (R193): a good word, a word with one wrong bit, and the way a damaged word is found first. -/

namespace Sys2Proof.Proofs

open Sys2Proof Sys2Proof.Machine Sys2Proof.Laws

/-! ### Good and corrected words -/

section Corrected

variable {s t : State} {w : Nat}

/-- In its canonical form the list names each word once (R185). -/
theorem wrongBitsIn_of_mem {l : List (Nat × WordBits)} (h : Canonical l) {e : Nat × WordBits} (he : e ∈ l) :
    wrongBitsIn l e.1 = e.2 := by
  obtain ⟨sorted, -⟩ := h
  induction l with
  | nil => exact nomatch he
  | cons a rest ih =>
    obtain ⟨above, tail⟩ := List.pairwise_cons.1 sorted
    rcases List.mem_cons.1 he with rfl | he
    · simp [wrongBitsIn]
    · have other : ¬ a.1 = e.1 := by
        have := above e.1 (List.mem_map_of_mem he)
        omega
      have found := ih he tail
      simp only [wrongBitsIn, List.find?_cons, other, decide_false] at found ⊢
      exact found

/-- Where the wrong bits stand as they were nothing has been found. -/
theorem judgeFound_same (wf : s.memory.wf = true) (same : t.memory.wrongBits = s.memory.wrongBits) : judgeFound s t = t := by
  refine if_neg ?_
  rw [foundDamage, same, Bool.not_eq_true, List.any_eq_false]
  intro e he found
  simp only [Bool.and_eq_true, decide_eq_true_eq] at found
  exact found.2 (wrongBitsIn_of_mem ((wf_iff _).1 wf) he)

/-- The words the scrub reads (R193, log 7). -/
def scrubNeed (w : Nat) (_ : State) : List Nat := [w, 407]

theorem scrubNeed_used (w : Nat) (s : State) : scrubNeed w s ++ usedWords (fun _ => nextScrub w) s = [w, 407] := by
  rw [usedWords_nextScrub]
  rfl

theorem noteWrites_nextScrub (w : Nat) (s t : State) : noteWrites (fun _ => nextScrub w) s t = t := ite_self _

/-- Good words change nothing (R187). -/
theorem carryOut_good (wf : s.memory.wf = true) (good : wrongBitsIn s.memory.wrongBits w = 0)
    (code : wrongBitsIn s.memory.wrongBits 407 = 0) :
    carryOut (scrubNeed w) (fun _ => nextScrub w) s = nextScrub w s := by
  have read : checked (scrubNeed w) (fun _ => nextScrub w) s = nextScrub w s :=
    checked_good (by simp [scrubNeed, good, code]) (usedWords_nextScrub w s) rfl
  rw [carryOut, read]
  exact judgeFound_same wf rfl

theorem countBits_ne {n : Nat} (h : countBits (wrongBitsIn s.memory.wrongBits w) = n + 1) :
    wrongBitsIn s.memory.wrongBits w ≠ 0 := fun e => by
  rw [e, countBits_zero] at h
  omega

theorem nextWrong_scrub (wrong : wrongBitsIn s.memory.wrongBits w ≠ 0) :
    nextWrong [] (scrubNeed w s ++ usedWords (fun _ => nextScrub w) s) s = some w := by
  rw [scrubNeed_used, nextWrong]
  exact List.find?_cons_of_pos (by simpa using wrong)

/-- The scrub reads the word at its pointer first. -/
theorem check_scrub (wrong : wrongBitsIn s.memory.wrongBits w ≠ 0) : ∃ n,
    check (fun u => scrubNeed w u ++ usedWords (fun _ => nextScrub w) u) s =
      readInTurn (readWord (behind (checkWith n))) (fun u => scrubNeed w u ++ usedWords (fun _ => nextScrub w) u) n [w]
        (readWord (behind (checkWith n)) w s) := by
  have some_ : s.memory.wrongBits ≠ [] := fun e => wrong (by rw [e]; rfl)
  unfold check
  cases hn : s.memory.wrongBits.length with
  | zero => exact absurd (List.length_eq_zero_iff.1 hn) some_
  | succ n =>
    refine ⟨n, ?_⟩
    rw [checkWith, hn]
    exact readInTurn_next n (nextWrong_scrub wrong)

/-- One wrong bit is corrected and counted (R188). -/
theorem carryOut_corrected (wf : s.memory.wf = true) (one : countBits (wrongBitsIn s.memory.wrongBits w) = 1)
    (code : w = 407 ∨ wrongBitsIn s.memory.wrongBits 407 = 0) :
    carryOut (scrubNeed w) (fun _ => nextScrub w) s = nextScrub w (correctWord w s) := by
  obtain ⟨n, read⟩ := check_scrub (countBits_ne one)
  have corrected : readWord (behind (checkWith n)) w s = correctWord w s := by
    unfold readWord
    rw [one]
    rfl
  have rest : nextWrong [w] (scrubNeed w (correctWord w s) ++ usedWords (fun _ => nextScrub w) (correctWord w s))
      (correctWord w s) = none := by
    rw [scrubNeed_used]
    have good : 407 = w ∨ wrongBitsIn (correctWord w s).memory.wrongBits 407 = 0 := code.imp_left Eq.symm
    rw [nextWrong, List.find?_eq_none]
    rcases good with e | e <;> simp [e]
  rw [corrected, readInTurn_done n rest] at read
  rw [carryOut, checked, behind_eq, read, noteWrites_nextScrub]
  exact judgeFound_same wf rfl

end Corrected

/-! ### What reads leave of the memory and the time -/

section Found

variable {s t u : State} {i : StationIx}

/-- What checked reads leave: no good word is wrong, what has been found stands, and no time passes (R187, R191). -/
def ReadOver (s t : State) : Prop := ReadStep s.memory t.memory ∧ t.elapsed = s.elapsed

theorem ReadStep.refl (m : Memory) : ReadStep m m := ⟨.refl m, fun _ _ h => h, fun _ h => h, id, rfl⟩

theorem ReadOver.refl (s : State) : ReadOver s s := ⟨.refl _, rfl⟩

theorem ReadOver.trans (h : ReadOver s t) (k : ReadOver t u) : ReadOver s u := ⟨h.1.trans k.1, k.2.trans h.2⟩

theorem ReadOver.of_same (hm : t.memory = s.memory) (he : t.elapsed = s.elapsed) : ReadOver s t := ⟨hm ▸ .refl _, he⟩

theorem ReadOver.of_table (k : TableChange s t) : ReadOver s t := .of_same k.memory k.elapsed

theorem rewriteWords_over (ws : List Nat) (s : State) : ReadOver s (rewriteWords ws s) := ⟨rewrites_read ws _, rfl⟩

theorem recordLost_over (i : StationIx) (k : Nat) (s : State) : ReadOver s (recordLost i k s) := by
  refine (rewriteWords_over ((recordBase i + k) :: workWords i) s).trans (.of_same ?_ ?_)
  · rw [recordLost, abandonFor_samplerOnly]
    rfl
  · rw [recordLost, abandonFor_samplerOnly]
    rfl

theorem damageUnused_over (i : StationIx) (k : Nat) (s : State) : ReadOver s (damageUnused i k s) := by
  refine (rewriteWords_over [recordBase i + k] s).trans ?_
  unfold damageUnused
  split
  · exact .of_same rfl rfl
  · exact .of_same rfl rfl

theorem misread_elapsed (w : Nat) (m : WordBits) (s : State) : (misread w m s).elapsed = s.elapsed := by
  unfold misread
  split
  · split <;> rfl
  · split
    · rfl
    · split
      · rfl
      · split <;> rfl

variable {P : State → Prop}

/-- A property that what reads leave of the memory and the time keeps. -/
theorem ReadSteady.of_over (hP : ∀ {s t}, ReadOver s t → P s → P t) : ReadSteady P where
  raise _ _ _ _ := hP (.of_same rfl rfl)
  soft _ _ _ := hP (.of_same rfl rfl)
  aim i r := hP (.of_table (aimed_table i r _))
  enter i n l f _ _ _ := hP (.of_table (enterState_table _ i n l f))
  enterAim i n l f r _ := hP ((ReadOver.of_table (enterState_table _ i n l f)).trans (.of_table (aimed_table i r _)))
  standDown i := hP (.of_table (standDown_table _ i))
  sampler _ _ := hP (.of_same rfl rfl)
  drive _ _ := hP (.of_same rfl rfl)
  measure _ := hP (.of_same rfl rfl)
  balancer _ := hP (.of_same rfl rfl)
  link _ := hP (.of_same rfl rfl)
  roundTimer _ := hP (.of_same rfl rfl)
  trip _ _ := hP (.of_same rfl rfl)
  followed _ _ := hP (.of_same rfl rfl)
  settings _ _ := hP (.of_same rfl rfl)
  reading _ step := hP ⟨step, rfl⟩
  recordLost i k _ := hP (recordLost_over i k _)
  damageUnused i k _ := hP (damageUnused_over i k _)
  misread _ _ := hP (.of_same (misread_memory ..) (misread_elapsed ..))

theorem TripSteady.of_over (hP : ∀ {s t}, ReadOver s t → P s → P t) : TripSteady P P :=
  ⟨(ReadSteady.of_over hP).checks, (ReadSteady.of_over hP).checks, fun _ => hP (.of_same rfl rfl),
    hP (.of_table (startSampler_table _))⟩

end Found

end Sys2Proof.Proofs
end

section
/-! The scrub finds a damaged word (R189 to R193): what it leaves whatever else the memory holds. -/

namespace Sys2Proof.Proofs

open Sys2Proof Sys2Proof.Machine Sys2Proof.Laws

section Damaged

variable {s t u : State} {w n : Nat} {i : StationIx} {P Q up : State → Prop}

theorem damageWord_read (two : countBits (wrongBitsIn s.memory.wrongBits w) = 2) (run : Reader) :
    readWord run w s = damageWord run w s := by
  unfold readWord
  rw [two]
  rfl

/-- A property of the part behind the finding that the rest of the scrub keeps (R193). -/
theorem scrub_reaches (hP : ReadSteady P) (hQ : TripSteady Q up) (two : countBits (wrongBitsIn s.memory.wrongBits w) = 2)
    (found : ∀ n, P (damageWord (behind (checkWith n)) w s)) (on : ∀ c, P c → Q (nextScrub w c)) :
    Q (carryOut (scrubNeed w) (fun _ => nextScrub w) s) := by
  obtain ⟨n, read⟩ := check_scrub (countBits_ne two)
  rw [damageWord_read two] at read
  rw [carryOut, checked, behind_eq, noteWrites_nextScrub]
  refine hQ.judgeFound _ (on _ ?_)
  rw [read]
  exact readInTurn_keeps (fun v t ht => hP.readWord (hP.behind fun need _ h => hP.checkWith n need h) v ht) _ _ _ (found n)

/-- The word is listed and written at once (R189, R191). -/
def taken (w : Nat) (s : State) : State := { s with memory := (s.memory.list w).rewrite w }

/-- The event of a finding (R189). -/
def reported (run : Reader) (w : Nat) (s : State) : State :=
  run noWords (fun _ => raise .recordDamaged (damageStationNumber w) none (some w)) (taken w s)

theorem damageWord_eq (run : Reader) (w : Nat) (s : State) : damageWord run w s = ownerHandles run w (reported run w s) := rfl

theorem ReadSteady.runs (hP : ReadSteady P) (n : Nat) : ReaderKeeps P (Machine.behind (Machine.checkWith n)) :=
  hP.behind fun need _ h => hP.checkWith n need h

theorem ReadSteady.reported (hP : ReadSteady P) (h : P (taken w s)) : P (reported (Machine.behind (Machine.checkWith n)) w s) :=
  hP.runs n _ _ _ (fun _ => hP.raise _ _ _ _) h

/-! ### The memory and the time -/

theorem readOver_reads (s : State) : ReadSteady (ReadOver s) := .of_over fun h k => k.trans h

theorem damageWord_over (w n : Nat) (s : State) : ReadOver (taken w s) (damageWord (behind (checkWith n)) w s) := by
  have reads := readOver_reads (taken w s)
  rw [damageWord_eq]
  exact reads.ownerHandles (reads.runs n) w (reads.reported (.refl _))

/-- What a scrub read leaves of a memory: the form, the word good, the time, and a property that reads keep. -/
structure Scrubbed (w now : Nat) (X : Memory → Prop) (t : State) : Prop where
  wf : t.memory.wf = true
  good : wrongBitsIn t.memory.wrongBits w = 0
  elapsed : t.elapsed = now
  holds : X t.memory

variable {X : Memory → Prop} {now : Nat}

theorem Scrubbed.over (hX : ∀ {m m'}, ReadStep m m' → X m → X m') (h : Scrubbed w now X s) (k : ReadOver s t) :
    Scrubbed w now X t :=
  ⟨k.1.wf h.wf, k.1.good h.wf w h.good, k.2.trans h.elapsed, hX k.1 h.holds⟩

/-- The word is good behind the scrub, no time passes, and the pointer moves on (R193). -/
theorem scrub_leaves (hX : ∀ {m m'}, ReadStep m m' → X m → X m')
    (moves : ∀ {m : Memory} {p d}, X m → X { m with scrubPointer := p, scrubDue := d })
    (two : countBits (wrongBitsIn s.memory.wrongBits w) = 2)
    (found : ∀ n, Scrubbed w s.elapsed X (damageWord (behind (checkWith n)) w s)) :
    Scrubbed w s.elapsed (fun m => X m ∧ m.scrubPointer = (w + 1) % 512) (carryOut (scrubNeed w) (fun _ => nextScrub w) s) :=
  scrub_reaches (.of_over fun k h => h.over hX k)
    (.of_over fun k h => h.over (fun step ⟨x, p⟩ => ⟨hX step x, step.pointer.trans p⟩) k) two found
    fun _ h => ⟨h.wf, h.good, h.elapsed, moves h.holds, rfl⟩

theorem taken_scrubbed (wf : s.memory.wf = true) (holds : X (taken w s).memory) : Scrubbed w s.elapsed X (taken w s) := by
  have listed : (s.memory.list w).wf = true := (list_step w s.memory).wf wf
  exact ⟨(rewrite_step w _).wf listed, (rewrite_good w listed).1, rfl, holds⟩

/-- The list of damage takes the word where it has room (R191). -/
theorem taken_listed (room : s.memory.damageList.length < 16) : w ∈ (taken w s).memory.damageList := by
  change w ∈ (s.memory.list w).damageList
  unfold Memory.list
  split
  · assumption
  · rw [if_pos (by exact room)]
    exact List.mem_append_right _ (List.mem_singleton.2 rfl)

/-- A damaged setting is remembered (R192). -/
theorem damageWord_flag (low : 384 ≤ w) (high : w ≤ 409) (wf : s.memory.wf = true) (n : Nat) :
    Scrubbed w s.elapsed (fun m => m.damagedSetting = true) (damageWord (behind (checkWith n)) w s) := by
  have reads : ReadSteady (Scrubbed w s.elapsed fun m => m.damagedSetting = true) := .of_over fun k h => h.over (·.flag) k
  have told := (readOver_reads (taken w s)).reported (n := n) (.refl _)
  have begun : Scrubbed w s.elapsed (fun _ => True) (reported (behind (checkWith n)) w s) :=
    (taken_scrubbed wf trivial).over (fun _ _ => trivial) told
  have owner : stationOfWord w = none := dif_neg (by omega)
  rw [damageWord_eq, ownerHandles]
  simp only [owner, if_pos high]
  refine reads.followWord (reads.runs n) w _ (reads.rewriteWords _ ?_)
  exact ⟨begun.wf, begun.good, begun.elapsed, rfl⟩

/-! ### The station of a damaged record word (R27) -/

theorem stationOfWord_eq (low : i.val * 24 ≤ w) (high : w < i.val * 24 + 24) : stationOfWord w = some i := by
  have bound := i.isLt
  unfold stationOfWord
  rw [dif_pos (by omega)]
  exact congrArg some (Fin.ext (by show w / 24 = i.val; omega))

theorem Recorded.moves {R : StationWork → Prop} (h : Recorded R i s) : Recorded R i (nextScrub w s) := h

/-- A damaged record word faults its station, where it is assigned (R27). -/
theorem damageWord_faults (low : i.val * 24 ≤ w) (high : w < i.val * 24 + 24) (n : Nat)
    (assigned : Recorded Assigned i (taken w s)) : Recorded RecordFaulted i (damageWord (behind (checkWith n)) w s) := by
  have before := recorded_reads assigned_rule i
  have after := recorded_reads recordFaulted_rule i
  rw [damageWord_eq, ownerHandles, stationOfWord_eq low high]
  refine behind_to (P := Recorded Assigned i) (fun ws _ => after.rewriteWords ws) (fun need _ h => before.checkWith n need h) (fun t ht => ?_) _
    (before.reported assigned)
  have assigned : (t.work i).state.assigned = true := ht.2
  rw [if_pos assigned]
  have lost : RecordFaulted ((recordLost i (w % 24) t).work i) := by
    rw [(recordLost_fields i (w % 24) t).2]
    exact ⟨rfl, rfl, rfl⟩
  exact after.moveRequest 0 ⟨(recordLost_blocks i (w % 24) t).memory.few ht.1, lost⟩

theorem taken_recorded {R : StationWork → Prop} (few : FewWrong s.memory.wrongBits) (h : R (s.work i)) :
    Recorded R i (taken w s) := ⟨((list_step w s.memory).trans (rewrite_step w _)).few few, h⟩

/-- The scrub leaves the station of a damaged record word FAULTED (R27, R193). -/
theorem scrub_faults (few : FewWrong s.memory.wrongBits) (two : countBits (wrongBitsIn s.memory.wrongBits w) = 2)
    (low : i.val * 24 ≤ w) (high : w < i.val * 24 + 24) (assigned : (s.work i).state.assigned = true) :
    Recorded RecordFaulted i (carryOut (scrubNeed w) (fun _ => nextScrub w) s) :=
  scrub_reaches (recorded_reads recordFaulted_rule i) (recorded_trips recordFaulted_rule i) two
    (fun n => damageWord_faults low high n (taken_recorded few assigned)) fun _ h => h.moves

/-- It leaves an UNUSED one UNUSED (R27). -/
theorem scrub_unused (few : FewWrong s.memory.wrongBits) (two : countBits (wrongBitsIn s.memory.wrongBits w) = 2)
    (unused : (s.work i).state = .unused) (whole : (s.work i).damaged = false) :
    Recorded UnusedWhole i (carryOut (scrubNeed w) (fun _ => nextScrub w) s) := by
  have reads := recorded_reads unusedWhole_rule i
  refine scrub_reaches reads (recorded_trips unusedWhole_rule i) two (fun n => ?_) fun _ h => h.moves
  rw [damageWord_eq]
  exact reads.ownerHandles (reads.runs n) w (reads.reported (taken_recorded few ⟨unused, whole⟩))

end Damaged

end Sys2Proof.Proofs
end

section
/-! A damaged word where no other word is wrong (R189, R190): what the finding and its owner leave stands to the end of the scrub. -/

namespace Sys2Proof.Proofs

open Sys2Proof Sys2Proof.Machine Sys2Proof.Laws

section Calm

variable {r s t u : State} {w n : Nat} {i : StationIx}

/-- Work on a part whose words are all good: the events raised before, the configurations, the settings and the sweep entries
stand, and every word stays good. -/
structure Calm (s t : State) : Prop where
  whole : s.memory.wrongBits = [] → t.memory.wrongBits = []
  grows : s.events.queue <+: t.events.queue
  cfg : ∀ j : StationIx, t.cfg j = s.cfg j
  settings : t.settings = s.settings
  entries : t.sampler.sweepEntries = s.sampler.sweepEntries

theorem Calm.refl (s : State) : Calm s s := ⟨id, List.prefix_refl _, fun _ => rfl, rfl, rfl⟩

theorem Calm.trans (h : Calm s t) (k : Calm t u) : Calm s u :=
  ⟨k.whole ∘ h.whole, h.grows.trans k.grows, fun j => (k.cfg j).trans (h.cfg j), k.settings.trans h.settings,
    k.entries.trans h.entries⟩

theorem Calm.of_table (h : TableChange s t) (grows : s.events.queue <+: t.events.queue)
    (stands : SamplerStands s.sampler t.sampler) : Calm s t :=
  ⟨fun e => by rw [h.memory]; exact e, grows, h.cfg, h.settings, stands.entries⟩

theorem rewrites_whole (ws : List Nat) (s : State) (h : s.memory.wrongBits = []) : (rewriteWords ws s).memory.wrongBits = [] := by
  change (ws.foldl Memory.rewrite s.memory).wrongBits = []
  generalize s.memory = m at h
  induction ws generalizing m with
  | nil => exact h
  | cons w rest ih => exact ih (m.rewrite w) (by rw [Memory.rewrite, h]; rfl)

theorem rewriteWords_calm (ws : List Nat) (s : State) : Calm s (rewriteWords ws s) :=
  ⟨rewrites_whole ws s, List.prefix_refl _, fun _ => rfl, rfl, rfl⟩

theorem aimed_calm (i : StationIx) (q : Nat) (s : State) : Calm s (aimed i q s) :=
  .of_table (aimed_table i q s) ((grown_steady _).aim i q (List.prefix_refl _)) ((stands_steady _).aim i q (.refl _))

theorem calm_table (r : State) : TableSteady (Calm r) where
  raise k n e v h := h.trans (.of_table (raise_table _ k n e v) (raise_queue_grows ..) (.refl _))
  soft _ _ _ h := h.trans ⟨id, List.prefix_refl _, fun _ => setWork_cfg .., rfl, rfl⟩
  aim i q h := h.trans (aimed_calm i q _)
  enter i n l f he ha ht h := h.trans (.of_table (enterState_table _ i n l f)
    ((grown_steady _).enter i n l f he ha ht (List.prefix_refl _)) (enterState_stands i n l f _))
  enterAim {s} i n l f q he h := by
    have entered := (grown_steady s.events.queue).enterAim i n l f q he (List.prefix_refl _)
    exact h.trans (.of_table ((enterState_table _ i n l f).trans (aimed_table i q _)) entered
      ((stands_steady s.sampler).enterAim i n l f q he (.refl _)))
  standDown i h := h.trans (.of_table (standDown_table _ i) ((grown_steady _).standDown i (List.prefix_refl _))
    ((stands_steady _).standDown i (.refl _)))
  selection _ _ stands h := h.trans ⟨id, List.prefix_refl _, fun _ => rfl, rfl, stands.entries⟩
  drive _ _ h := h.trans ⟨id, List.prefix_refl _, fun _ => rfl, rfl, rfl⟩

theorem calm_work (r : State) : WorkSteady (Calm r) where
  toTableSteady := calm_table r
  unparked h := h.trans ⟨id, List.prefix_refl _, fun _ => rfl, rfl, rfl⟩
  measure _ h := h.trans ⟨id, List.prefix_refl _, fun _ => rfl, rfl, rfl⟩
  balancer _ h := h.trans ⟨id, List.prefix_refl _, fun _ => rfl, rfl, rfl⟩
  link _ h := h.trans ⟨id, List.prefix_refl _, fun _ => rfl, rfl, rfl⟩
  roundTimer _ h := h.trans ⟨id, List.prefix_refl _, fun _ => rfl, rfl, rfl⟩
  trip _ _ h := h.trans ⟨id, List.prefix_refl _, fun _ => rfl, rfl, rfl⟩
  followed old new h := h.trans ⟨id, (follow_alone old new _).1 ▸ List.prefix_refl _, fun _ => rfl, rfl, rfl⟩

/-- The same on a part whose words are all good, which checked reads leave as it is. -/
def CalmWhole (r t : State) : Prop := t.memory.wrongBits = [] ∧ Calm r t

theorem CalmWhole.on (h : CalmWhole r s) (k : Calm s t) : CalmWhole r t := ⟨k.whole h.1, h.2.trans k⟩

theorem calmWhole_checks (r : State) : CheckSteady (CalmWhole r) where
  raise k n e v h := h.on ((calm_table _).raise k n e v (.refl _))
  soft i w hw h := h.on ((calm_table _).soft i w hw (.refl _))
  aim i q h := h.on ((calm_table _).aim i q (.refl _))
  enter i n l f he ha ht h := h.on ((calm_table _).enter i n l f he ha ht (.refl _))
  enterAim i n l f q he h := h.on ((calm_table _).enterAim i n l f q he (.refl _))
  standDown i h := h.on ((calm_table _).standDown i (.refl _))
  selection k step stands h := h.on ((calm_table _).selection k step stands (.refl _))
  drive d step h := h.on ((calm_table _).drive d step (.refl _))
  trip u step h := h.on ((calm_work _).trip u step (.refl _))
  check need s h := by rw [check_clean need h.1]; exact h
  written ws s h := h.on (rewriteWords_calm ws s)

theorem calmWhole_work (r : State) : WorkSteady (CalmWhole r) where
  toTableSteady := (calmWhole_checks r).toTableSteady
  unparked h := h.on ((calm_work _).unparked (.refl _))
  measure v h := h.on ((calm_work _).measure v (.refl _))
  balancer v h := h.on ((calm_work _).balancer v (.refl _))
  link v h := h.on ((calm_work _).link v (.refl _))
  roundTimer v h := h.on ((calm_work _).roundTimer v (.refl _))
  trip u step h := h.on ((calm_work _).trip u step (.refl _))
  followed old new h := h.on ((calm_work _).followed old new (.refl _))

theorem startSampler_calm (s : State) : Calm s (startSampler plain s) := by
  have entries : (startSampler plain s).sampler.sweepEntries = s.sampler.sweepEntries := by
    unfold startSampler
    split
    · split
      · rfl
      · exact (select_stands _).entries
    · rfl
  exact ⟨fun e => by rw [(startSampler_table s).memory]; exact e, by rw [startSampler_events], (startSampler_table s).cfg,
    (startSampler_table s).settings, entries⟩

theorem calmWhole_trips (r : State) : TripSteady (CalmWhole r) (CalmWhole r) :=
  ⟨calmWhole_checks r, calmWhole_checks r,
    fun o h => h.on ⟨id, tripUnit_grows o _, fun _ => rfl, rfl, rfl⟩, fun h => h.on (startSampler_calm _)⟩

/-! ### The reader of a finding -/

theorem checkWith_whole (n : Nat) (need : State → List Nat) (h : s.memory.wrongBits = []) : checkWith n need s = s := by
  cases n with
  | zero => rfl
  | succ n => rw [checkWith, h]; rfl

/-- The reader of a finding, where every word is good behind it. -/
theorem run_calm (need : State → List Nat) (work : Work) (n : Nat) (whole : s.memory.wrongBits = []) :
    Calm (work plain s) (behind (checkWith n) need work s) := by
  rw [behind_eq, checkWith_whole n _ whole]
  unfold noteWrites
  split
  · exact .refl _
  · exact rewriteWords_calm _ _

theorem calmWhole_runs (n : Nat) (r : State) : ReaderKeeps (CalmWhole r) (behind (checkWith n)) :=
  fun need work s hw h => (hw s h).on (run_calm need work n h.1)

/-! ### The owner of the word (R190) -/

theorem recordLost_whole (i : StationIx) (k : Nat) (h : s.memory.wrongBits = []) : (recordLost i k s).memory.wrongBits = [] := by
  have memory : (recordLost i k s).memory = (rewriteWords ((recordBase i + k) :: workWords i) s).memory := by
    rw [recordLost, abandonFor_samplerOnly]
    rfl
  rw [memory]
  exact rewrites_whole _ s h

theorem recordLost_grows (i : StationIx) (k : Nat) (s : State) : s.events.queue <+: (recordLost i k s).events.queue := by
  have raised : (recordLost i k s).events = (raise .state (stationNumber i) none
      (some (StationState.faulted .record).eventValue) s).events := by
    rw [recordLost, abandonFor_samplerOnly]
    rfl
  rw [raised]
  exact raise_queue_grows ..

theorem recordLost_cfg (i : StationIx) (k : Nat) (s : State) :
    (recordLost i k s).cfg i = copyConfigWord k StationConfig.default (s.cfg i) := by
  rw [recordLost, abandonFor_samplerOnly]
  exact (setWork_cfg ..).trans (setCfg_cfg_same ..)

/-- The words behind the configuration hold none of it. -/
theorem copyConfigWord_high {k : Nat} (h : 8 ≤ k) (c d : StationConfig) : copyConfigWord k c d = d := by
  unfold copyConfigWord
  split
  case h_7 => rfl
  all_goals omega

theorem damageUnused_whole (i : StationIx) (k : Nat) (h : s.memory.wrongBits = []) : (damageUnused i k s).memory.wrongBits = [] := by
  unfold damageUnused
  split
  · exact rewrites_whole _ (s.setCfg i _) h
  · exact rewrites_whole _ (s.setWork i _) h

theorem damageUnused_events (i : StationIx) (k : Nat) (s : State) : (damageUnused i k s).events = s.events := by
  unfold damageUnused
  split <;> rfl

theorem damageUnused_cfg (i : StationIx) (k : Nat) (s : State) :
    (damageUnused i k s).cfg i = copyConfigWord k StationConfig.default (s.cfg i) := by
  unfold damageUnused
  split
  · exact setCfg_cfg_same ..
  · rw [copyConfigWord_high (by omega)]
    exact setWork_cfg ..

/-- A word whose owner is a station (R27). -/
theorem damageRecord_calm (i : StationIx) (k n : Nat) (whole : s.memory.wrongBits = []) :
    ∃ r : State, r.memory.wrongBits = [] ∧ s.events.queue <+: r.events.queue ∧
      r.cfg i = copyConfigWord k StationConfig.default (s.cfg i) ∧ Calm r (damageRecord (behind (checkWith n)) i k s) := by
  have run := run_calm (fun _ => workWords i)
    (fun a t => if (t.work i).state.assigned then damageAssigned i k a t else damageUnused i k t) n whole
  by_cases assigned : (s.work i).state.assigned = true
  · rw [if_pos assigned] at run
    exact ⟨recordLost i k s, recordLost_whole i k whole, recordLost_grows i k s, recordLost_cfg i k s,
      Calm.trans ((calm_table _).moveRequest 0 (.refl _)) run⟩
  · rw [if_neg assigned] at run
    exact ⟨damageUnused i k s, damageUnused_whole i k whole, by rw [damageUnused_events], damageUnused_cfg i k s, run⟩

/-- A setting word returns to its defaults (R190, R192). -/
def settingRestored (w : Nat) (s : State) : State := rewriteWords [w] { s with
  settings := copySettingWord w Settings.default s.settings
  memory := { s.memory with damagedSetting := true } }

theorem damageSetting_calm (w n : Nat) (whole : s.memory.wrongBits = []) :
    (settingRestored w s).memory.wrongBits = [] ∧
      CalmWhole (settingRestored w s) (damageSetting (behind (checkWith n)) w s) := by
  have restored : (settingRestored w s).memory.wrongBits = [] := rewrites_whole [w] { s with
    settings := copySettingWord w Settings.default s.settings
    memory := { s.memory with damagedSetting := true } } whole
  exact ⟨restored, (calmWhole_work _).followWord (calmWhole_runs n _) w s.settings ⟨restored, .refl _⟩⟩

theorem damageSweep_calm (w n : Nat) (whole : s.memory.wrongBits = []) :
    Calm (closeUpSweep w s) (damageSweep (behind (checkWith n)) w s) :=
  run_calm _ (fun _ => closeUpSweep w) n whole

end Calm

end Sys2Proof.Proofs
end

section
/-! The scrub's read as a whole (R187 to R193). -/

namespace Sys2Proof.Proofs

open Sys2Proof Sys2Proof.Machine Sys2Proof.Laws

/-! ### A damaged word alone -/

section Alone

variable {r s t u : State} {w n : Nat} {i : StationIx}

theorem whole_of_good {m : Memory} (wf : m.wf = true) (good : ∀ v, wrongBitsIn m.wrongBits v = 0) : m.wrongBits = [] := by
  have canonical := (wf_iff m).1 wf
  rw [List.eq_nil_iff_forall_not_mem]
  intro e he
  exact (canonical.2 e he).2 ((wrongBitsIn_of_mem canonical he).symm.trans (good e.1))

/-- Where no other word is wrong, every word is good behind a finding (R189). -/
theorem taken_whole (wf : s.memory.wf = true) (alone : ∀ v, v ≠ w → wrongBitsIn s.memory.wrongBits v = 0) :
    (taken w s).memory.wrongBits = [] := by
  have listed : (s.memory.list w).wf = true := (list_step w s.memory).wf wf
  refine whole_of_good ((rewrite_step w _).wf listed) fun v => ?_
  by_cases hv : v = w
  · subst hv
    exact (rewrite_good v listed).1
  · exact (rewrite_other _ hv).trans ((list_read w s.memory).good wf v (alone v hv))

/-- The sweep entries closed up over those of a word (R61). -/
def closedUp (w : Nat) (e : SweepEntries) : SweepEntries :=
  entriesFrom fun k => if k < 4 * (w - 448) then e.toList[k]?.join
    else (stationsUpToEnd (e.toList.take (4 * (w - 448)) ++ e.toList.drop (4 * (w - 448) + 4)))[k]?

/-- What the owner of a damaged word makes of it at once (R190). -/
structure Owned (w : Nat) (s r : State) : Prop where
  whole : r.memory.wrongBits = []
  grows : s.events.queue <+: r.events.queue
  cfg : ∀ i : StationIx, i.val * 24 ≤ w → w < i.val * 24 + 24 →
    r.cfg i = copyConfigWord (w % 24) StationConfig.default (s.cfg i)
  settings : 384 ≤ w → w ≤ 409 → r.settings = copySettingWord w Settings.default s.settings
  entries : 448 ≤ w → w ≤ 455 → r.sampler.sweepEntries = closedUp w s.sampler.sweepEntries

theorem Owned.of_calm (h : Owned w t r) (k : Calm s t) : Owned w s r where
  whole := h.whole
  grows := k.grows.trans h.grows
  cfg i low high := by rw [h.cfg i low high, k.cfg]
  settings low high := by rw [h.settings low high, k.settings]
  entries low high := by rw [h.entries low high, k.entries]

theorem ownerHandles_station (n : Nat) (whole : s.memory.wrongBits = []) (low : i.val * 24 ≤ w) (high : w < i.val * 24 + 24) :
    ∃ r, Owned w s r ∧ Calm r (ownerHandles (behind (checkWith n)) w s) := by
  obtain ⟨r, whole, grows, cfg, calm⟩ := damageRecord_calm i (w % 24) n whole
  have bound := i.isLt
  refine ⟨r, ⟨whole, grows, fun j low' high' => ?_, fun low' _ => by omega, fun low' _ => by omega⟩, ?_⟩
  · obtain rfl : j = i := Fin.ext (by omega)
    exact cfg
  · rw [ownerHandles, stationOfWord_eq low high]
    exact calm

theorem ownerHandles_calm (w n : Nat) (whole : s.memory.wrongBits = []) :
    ∃ r, Owned w s r ∧ Calm r (ownerHandles (behind (checkWith n)) w s) := by
  by_cases station : w < 384
  · exact ownerHandles_station (i := ⟨w / 24, by omega⟩) n whole (by dsimp only; omega) (by dsimp only; omega)
  have none_ : stationOfWord w = none := dif_neg station
  have far (i : StationIx) (low : i.val * 24 ≤ w) (high : w < i.val * 24 + 24) : False := by
    have := i.isLt
    omega
  unfold ownerHandles
  simp only [none_]
  split
  case isTrue setting =>
    obtain ⟨restored, calm⟩ := damageSetting_calm w n whole
    exact ⟨settingRestored w s, ⟨restored, List.prefix_refl _, fun i low high => (far i low high).elim, fun _ _ => rfl,
      fun low _ => by omega⟩, calm.2⟩
  case isFalse other =>
    split
    case isTrue sweep =>
      exact ⟨closeUpSweep w s, ⟨rewrites_whole _ { s with sampler := _ } whole, List.prefix_refl _,
        fun i low high => (far i low high).elim, fun _ high => by omega, fun _ _ => rfl⟩, damageSweep_calm w n whole⟩
    case isFalse outside =>
      split
      · refine ⟨rewriteWords [w] { s with sampler := { s.sampler with classes := allNear } }, ?_, .refl _⟩
        exact ⟨rewrites_whole [w] { s with sampler := { s.sampler with classes := allNear } } whole, List.prefix_refl _,
          fun i low high => (far i low high).elim, fun _ high => by omega, fun low high => absurd ⟨low, high⟩ outside⟩
      · exact ⟨_, ⟨rewrites_whole _ s whole, List.prefix_refl _,
          fun i low high => (far i low high).elim, fun _ high => by omega, fun low high => absurd ⟨low, high⟩ outside⟩, .refl _⟩

/-- The finding and its event (R189). -/
def told (w : Nat) (s : State) : State := raise .recordDamaged (damageStationNumber w) none (some w) (taken w s)

theorem told_queue (room : s.events.queue.length < 24) : (told w s).events.queue =
    s.events.queue ++ [⟨.recordDamaged, damageStationNumber w, none, bankClock s, some w⟩] :=
  raise_queue (s := taken w s) _ _ _ _ room

theorem nextScrub_calm (w : Nat) (s : State) : Calm s (nextScrub w s) := ⟨id, List.prefix_refl _, fun _ => rfl, rfl, rfl⟩

/-- What the owner has made of the word stands to the end of the scrub, where no other word is wrong (R190, R193). -/
theorem scrub_owned (wf : s.memory.wf = true) (two : countBits (wrongBitsIn s.memory.wrongBits w) = 2)
    (alone : ∀ v, v ≠ w → wrongBitsIn s.memory.wrongBits v = 0) :
    ∃ r, Owned w (told w s) r ∧ Calm r (carryOut (scrubNeed w) (fun _ => nextScrub w) s) := by
  obtain ⟨n, read⟩ := check_scrub (countBits_ne two)
  have first : Calm (told w s) (reported (behind (checkWith n)) w s) :=
    run_calm noWords (fun _ => raise .recordDamaged (damageStationNumber w) none (some w)) n (taken_whole wf alone)
  have whole : (told w s).memory.wrongBits = [] := taken_whole wf alone
  obtain ⟨r, owned, calm⟩ := ownerHandles_calm w n (first.whole whole)
  have done : (ownerHandles (behind (checkWith n)) w (reported (behind (checkWith n)) w s)).memory.wrongBits = [] :=
    calm.whole owned.whole
  rw [damageWord_read two, damageWord_eq, readInTurn_done n (nextWrong_clean _ _ done)] at read
  refine ⟨r, owned.of_calm first, ?_⟩
  rw [carryOut, checked, behind_eq, noteWrites_nextScrub, read]
  exact ((calmWhole_trips r).judgeFound s (CalmWhole.on ⟨done, calm⟩ (nextScrub_calm w _))).2

end Alone

end Sys2Proof.Proofs
end

section
/-! The sweep list behind a damaged word of it (R61), and the scrub as a whole (R193). -/

namespace Sys2Proof.Proofs

open Sys2Proof Sys2Proof.Machine Sys2Proof.Laws

/-! ### The sweep list closes up (R61) -/

section SweepWord

variable {w : Nat} {e : SweepEntries}

/-- The stations up to the first 0 are those at their places, and a 0 or the end behind them (R59). -/
theorem stationsUpToEnd_iff {l : List (Option StationIx)} {r : List StationIx} :
    stationsUpToEnd l = r ↔ ∀ k ≤ r.length, l[k]?.join = r[k]? := by
  induction l generalizing r with
  | nil =>
    cases r with
    | nil => simp [stationsUpToEnd]
    | cons j rest =>
      refine ⟨fun e => (nomatch e), fun h => ?_⟩
      exact nomatch h 0 (Nat.zero_le _)
  | cons o rest ih =>
    cases o with
    | none =>
      cases r with
      | nil => simp [stationsUpToEnd]
      | cons j tail =>
        refine ⟨fun e => (nomatch e), fun h => ?_⟩
        exact nomatch h 0 (Nat.zero_le _)
    | some i =>
      cases r with
      | nil =>
        refine ⟨fun e => (nomatch e), fun h => ?_⟩
        exact nomatch h 0 (Nat.zero_le _)
      | cons j tail =>
        rw [stationsUpToEnd, List.cons.injEq, ih]
        refine ⟨fun ⟨same, h⟩ k hk => ?_, fun h => ⟨?_, fun k hk => ?_⟩⟩
        · cases k with
          | zero => exact congrArg some same
          | succ k => exact h k (Nat.le_of_succ_le_succ hk)
        · exact Option.some.inj (h 0 (Nat.zero_le _))
        · exact h (k + 1) (Nat.succ_le_succ hk)

/-- The entries without those of a word. -/
def withoutWord (w : Nat) (e : SweepEntries) : List (Option StationIx) :=
  e.toList.take (4 * (w - 448)) ++ e.toList.drop (4 * (w - 448) + 4)

theorem withoutWord_get (high : w ≤ 455) (k : Nat) :
    (withoutWord w e)[k]? = if k < 4 * (w - 448) then e.toList[k]? else e.toList[k + 4]? := by
  have length : e.toList.length = 32 := by simp
  have taken : (e.toList.take (4 * (w - 448))).length = 4 * (w - 448) := by
    rw [List.length_take]
    omega
  unfold withoutWord
  split
  case isTrue h =>
    rw [List.getElem?_append_left (by omega), List.getElem?_take_of_lt h]
  case isFalse h =>
    have place : 4 * (w - 448) + 4 + (k - 4 * (w - 448)) = k + 4 := by omega
    rw [List.getElem?_append_right (by omega), List.getElem?_drop, taken, place]

theorem entry_join (k : Nat) (h : k < 32) : e.toList[k]?.join = e[k] := by
  rw [List.getElem?_eq_getElem (by simpa using h), Vector.getElem_toList]
  rfl

theorem closedUp_get (k : Nat) (h : k < 32) : (closedUp w e)[k] =
    if k < 4 * (w - 448) then e[k] else (stationsUpToEnd (withoutWord w e))[k]? := by
  rw [closedUp, entriesFrom_get _ _ h, entry_join k h]
  rfl

/-- The list closes up to the first 0 that the surviving words show. -/
theorem closedUp_list (high : w ≤ 455) :
    stationsUpToEnd (closedUp w e).toList = stationsUpToEnd (withoutWord w e) := by
  refine stationsUpToEnd_iff.2 fun k hk => ?_
  have short : (withoutWord w e).length ≤ 28 := by
    rw [withoutWord, List.length_append, List.length_take, List.length_drop, Vector.length_toList]
    omega
  have bound := stationsUpToEnd_length (withoutWord w e)
  have inside : k < 32 := by omega
  rw [entry_join k inside, closedUp_get k inside]
  split
  case isTrue h =>
    have kept := stationsUpToEnd_iff.1 (rfl : stationsUpToEnd (withoutWord w e) = _) k hk
    rw [withoutWord_get high, if_pos h, entry_join k inside] at kept
    exact kept
  case isFalse => rfl

/-- Where every entry behind the end was 0, the list loses the stations of the word alone. -/
theorem closedUp_zeros (high : w ≤ 455) {l : List StationIx} (hl : stationsUpToEnd e.toList = l)
    (zeros : ∀ k : Fin 32, l.length ≤ k.val → e[k.val] = none) :
    stationsUpToEnd (withoutWord w e) = l.take (4 * (w - 448)) ++ l.drop (4 * (w - 448) + 4) := by
  have every (k : Nat) : e.toList[k]?.join = l[k]? := by
    by_cases hk : k ≤ l.length
    · exact stationsUpToEnd_iff.1 hl k hk
    · rw [List.getElem?_eq_none (by omega : l.length ≤ k)]
      by_cases inside : k < 32
      · rw [entry_join k inside]
        exact zeros ⟨k, inside⟩ (Nat.le_of_lt (Nat.not_le.1 hk))
      · rw [List.getElem?_eq_none (by simpa using inside)]
        rfl
  refine stationsUpToEnd_iff.2 fun k _ => ?_
  rw [withoutWord_get high, apply_ite Option.join, every, every]
  by_cases h : k < 4 * (w - 448)
  · rw [if_pos h]
    by_cases hl' : k < l.length
    · rw [List.getElem?_append_left (by rw [List.length_take]; omega), List.getElem?_take_of_lt h]
    · have short : l.drop (4 * (w - 448) + 4) = [] := List.drop_eq_nil_of_le (by omega)
      rw [short, List.append_nil, List.getElem?_take_of_lt h]
  · rw [if_neg h]
    by_cases long : 4 * (w - 448) ≤ l.length
    · have place : 4 * (w - 448) + 4 + (k - 4 * (w - 448)) = k + 4 := by omega
      rw [List.getElem?_append_right (by rw [List.length_take]; omega), List.getElem?_drop, List.length_take,
        Nat.min_eq_left long, place]
    · have short : l.drop (4 * (w - 448) + 4) = [] := List.drop_eq_nil_of_le (by omega)
      rw [short, List.append_nil, List.getElem?_eq_none (by omega), List.getElem?_eq_none (by rw [List.length_take]; omega)]

end SweepWord

/-! ### The scrub (R193) -/

/-- A mask that counts no bit is 0. -/
theorem countBits_eq_zero {m : WordBits} (h : countBits m = 0) : m = 0 := by
  refine BitVec.eq_of_getLsbD_eq fun k hk => ?_
  rw [countBits, List.countP_eq_zero] at h
  simpa using h k (List.mem_range.2 hk)

variable {s : State} {w : Nat}

/-- What the scrub leaves of a damaged word whatever else is wrong (R189 to R193). -/
theorem scrub_damaged (wf : s.memory.wf = true) (two : countBits (wrongBitsIn s.memory.wrongBits w) = 2) :
    let t := carryOut (scrubNeed w) (fun _ => nextScrub w) s
    t.memory.scrubPointer = (w + 1) % 512 ∧ t.elapsed = s.elapsed ∧ wrongBitsIn t.memory.wrongBits w = 0 ∧
      (s.memory.damageList.length < 16 → w ∈ t.memory.damageList) ∧
      (384 ≤ w → w ≤ 409 → t.memory.damagedSetting = true) := by
  intro t
  have plain_ := scrub_leaves (X := fun _ => True) (fun _ _ => trivial) (fun _ => trivial) two fun n =>
    (taken_scrubbed wf trivial).over (fun _ _ => trivial) (damageWord_over w n s)
  refine ⟨plain_.holds.2, plain_.elapsed, plain_.good, fun room => ?_, fun low high => ?_⟩
  · exact (scrub_leaves (X := fun m => w ∈ m.damageList) (fun step h => step.listed w h) id two fun n =>
      (taken_scrubbed (X := fun m => w ∈ m.damageList) wf (taken_listed room)).over (fun step h => step.listed w h)
        (damageWord_over w n s)).holds.1
  · exact (scrub_leaves (X := fun m => m.damagedSetting = true) (fun step h => step.flag h) id two
      (damageWord_flag low high wf)).holds.1

/-- A sweep list behind a damaged word of it (R61). -/
theorem sweep_closed (high : w ≤ 455) {t : State} (entries : t.sampler.sweepEntries = closedUp w s.sampler.sweepEntries) :
    t.sampler.sweepList = stationsUpToEnd (withoutWord w s.sampler.sweepEntries) ∧
      ((∀ k : Fin 32, s.sampler.sweepList.length ≤ k.val → s.sampler.sweepEntries[k.val] = none) →
        t.sampler.sweepList =
          s.sampler.sweepList.take (4 * (w - 448)) ++ s.sampler.sweepList.drop (4 * (w - 448) + 4)) ∧
      ∀ k : Fin 32, t.sampler.sweepEntries[k.val] =
        if k.val < 4 * (w - 448) then s.sampler.sweepEntries[k.val] else t.sampler.sweepList[k.val]? := by
  have list : t.sampler.sweepList = stationsUpToEnd (withoutWord w s.sampler.sweepEntries) := by
    rw [Sampler.sweepList, entries]
    exact closedUp_list high
  refine ⟨list, fun zeros => list.trans (closedUp_zeros high rfl zeros), fun k => ?_⟩
  rw [list]
  simp only [entries]
  exact closedUp_get k.val k.isLt

/-- What it leaves of the rest of the part where no other word is wrong (R61, R189, R190). -/
theorem scrub_alone (wf : s.memory.wf = true) (two : countBits (wrongBitsIn s.memory.wrongBits w) = 2)
    (alone : ∀ v, v ≠ w → wrongBitsIn s.memory.wrongBits v = 0) :
    let t := carryOut (scrubNeed w) (fun _ => nextScrub w) s
    (s.events.queue.length < 24 → ∃ l, t.events.queue =
      s.events.queue ++ ⟨.recordDamaged, damageStationNumber w, none, bankClock s, some w⟩ :: l) ∧
    (∀ i : StationIx, i.val * 24 ≤ w → w < i.val * 24 + 24 →
      t.cfg i = copyConfigWord (w % 24) StationConfig.default (s.cfg i)) ∧
    (384 ≤ w → w ≤ 409 → t.settings = copySettingWord w Settings.default s.settings) ∧
    (448 ≤ w → w ≤ 455 → t.sampler.sweepEntries = closedUp w s.sampler.sweepEntries) := by
  intro t
  obtain ⟨r, owned, calm⟩ := scrub_owned wf two alone
  refine ⟨fun room => ?_, fun i low high => (calm.cfg i).trans (owned.cfg i low high),
    fun low high => calm.settings.trans (owned.settings low high), fun low high => calm.entries.trans (owned.entries low high)⟩
  refine first_of_grown ?_
  rw [← told_queue room]
  exact owned.grows.trans calm.grows

/-- Settles O44. -/
theorem scrubReads : Obligations.ScrubReads := by
  unfold Obligations.ScrubReads
  intro s power sound
  obtain ⟨wf, -⟩ := sound
  have run : exec .scrub s = .next (carryOut (scrubNeed s.memory.scrubPointer) (fun _ => nextScrub s.memory.scrubPointer)
      (passUntil s.memory.scrubDue s)) := perform_powered scrub power
  refine ⟨fun zero code => ?_, fun one code => ?_, fun two => ?_⟩
  · have good := countBits_eq_zero zero
    have code : wrongBitsIn s.memory.wrongBits 407 = 0 := code.elim (fun e => e ▸ good) id
    rw [run, carryOut_good (s := passUntil s.memory.scrubDue s) wf good code]
    rfl
  · rw [run, carryOut_corrected (s := passUntil s.memory.scrubDue s) wf one code]
    rfl
  · obtain ⟨pointer, elapsed, good, listed, flag⟩ := scrub_damaged (s := passUntil s.memory.scrubDue s) wf two
    refine ⟨_, run, pointer, elapsed, good, listed, flag, fun few i low high assigned => ?_,
      fun few i low high unused whole => ?_, fun alone => ?_⟩
    · exact (scrub_faults (s := passUntil s.memory.scrubDue s) few two low high assigned).2
    · exact (scrub_unused (s := passUntil s.memory.scrubDue s) few two unused whole).2
    · obtain ⟨events, cfg, settings, entries⟩ := scrub_alone (s := passUntil s.memory.scrubDue s) wf two alone
      exact ⟨events, cfg, settings, fun low high => sweep_closed (s := s) high (entries low high)⟩

end Sys2Proof.Proofs
end
